-- ==== Sys2Proof/Word.lean ====
section
/-! DEFINITION. The words of SPCORE: 64-bit registers (R9, R21), bytes of a bus transfer (R73), 32-bit counts (R30, R31). -/

namespace Sys2Proof

/-- The content of a register, and a command word: 64 bits, bit 0 the least significant (R9). -/
abbrev Word := BitVec 64

/-- A binary64 bit pattern: bit 63 sign, bits 62..52 biased exponent, bits 51..0 fraction (R73). -/
abbrev F64 := BitVec 64

/-- An unsigned 32-bit count (R7, "integer registers"). -/
abbrev U32 := BitVec 32

/-- One byte lane of a bus transfer (R73). -/
abbrev Byte := BitVec 8

/-- A byte offset on the host bus: 10 bits, 0x000..0x3FF (R70). -/
abbrev Offset := BitVec 10

end Sys2Proof
end

