-- ==== Sys2Proof/Syntax.lean ====
section
/-! DEFINITION. The nine commands of SPCORE (R3, R93), one constructor for each row of the opcode table. -/

namespace Sys2Proof

/-- A command. Commands have no operand fields (R91, R95): every operand is a register read when the command executes. -/
inductive Instr where
  /-- OPCODE 0x00, R181. -/
  | nop
  /-- OPCODE 0x01, R110. -/
  | pllInit
  /-- OPCODE 0x02, R150. -/
  | mpptInit
  /-- OPCODE 0x03, R170. -/
  | mapInit
  /-- OPCODE 0x04, R112. -/
  | pllUpdate
  /-- OPCODE 0x05, R151. -/
  | mpptUpdate
  /-- OPCODE 0x06, R171. -/
  | mapUpdate
  /-- OPCODE 0x07, R182. -/
  | cycle
  /-- OPCODE 0x08, R185. -/
  | run
  deriving DecidableEq, Repr

end Sys2Proof
end

