-- ==== Sys2Proof/WellFormed.lean ====
section
/-! DEFINITION. Well-formedness: a command has no operand that could be ill formed; a command word has two checks, RSV and OPCODE. -/

namespace Sys2Proof

/-- Every command is well formed: the format has no register or immediate field (R91). -/
def Instr.wf : Instr → Bool
  | .nop | .pllInit | .mpptInit | .mapInit | .pllUpdate | .mpptUpdate | .mapUpdate | .cycle | .run => true

/-- The reserved field of a command word is zero (R91, R92). -/
def rsvClear (w : Word) : Bool := w.toNat / 256 == 0

/-- The opcode field of a command word is one of the nine of R93 (R94). -/
def opcodeLegal (w : Word) : Bool := decide (w.toNat % 256 ≤ 8)

/-- A legal command word: both checks hold (R92, R94). -/
def commandWordWf (w : Word) : Bool := rsvClear w && opcodeLegal w

end Sys2Proof
end

