-- ==== Sys2Proof/Decode.lean ====
section
/-! DEFINITION. The command decoder, total on any bytes and rejecting by name, and the encoder (30_encoding.md R90–R96). -/

namespace Sys2Proof

/-- Why bytes or a word are no command. -/
inductive DecodeError where
  /-- Fewer than the eight bytes of one command word (R90: every command word is exactly 64 bits). -/
  | truncated
  /-- RSV is not zero (R92): Err(CMD_RESERVED). -/
  | reserved
  /-- OPCODE is 0x09..0xFF (R94): Err(CMD_ILLEGAL). -/
  | illegal
  deriving DecidableEq, Repr

/-- OPCODE, bits 7..0 of the command word (R91). -/
def opcodeField (w : Word) : Byte := w.extractLsb' 0 8

/-- RSV, bits 63..8 of the command word (R91). -/
def rsvField (w : Word) : BitVec 56 := w.extractLsb' 8 56

/-- The opcode map (R93); every other value is illegal (R94). -/
def instrOfOpcode (op : Byte) : Option Instr :=
  match op.toNat with
  | 0x00 => some .nop
  | 0x01 => some .pllInit
  | 0x02 => some .mpptInit
  | 0x03 => some .mapInit
  | 0x04 => some .pllUpdate
  | 0x05 => some .mpptUpdate
  | 0x06 => some .mapUpdate
  | 0x07 => some .cycle
  | 0x08 => some .run
  | _ => none

/-- Decode a command word: the RSV check comes before the opcode check (R92). -/
def decodeWord (w : Word) : Except DecodeError Instr :=
  if rsvField w ≠ 0 then .error .reserved
  else
    match instrOfOpcode (opcodeField w) with
    | some i => .ok i
    | none => .error .illegal

/-- Eight bytes as a word, the first byte the least significant lane (R73). -/
def wordOfLanes (b0 b1 b2 b3 b4 b5 b6 b7 : Byte) : Word :=
  b7 ++ b6 ++ b5 ++ b4 ++ b3 ++ b2 ++ b1 ++ b0

/-- Decode the first command of a list of bytes in bus order, and give the rest of the list. There is one length (R96). -/
def decode : List Byte → Except DecodeError (Instr × List Byte)
  | b0 :: b1 :: b2 :: b3 :: b4 :: b5 :: b6 :: b7 :: rest =>
    match decodeWord (wordOfLanes b0 b1 b2 b3 b4 b5 b6 b7) with
    | .ok i => .ok (i, rest)
    | .error e => .error e
  | _ => .error .truncated

/-- OPCODE of a command (R93). -/
def opcodeOf : Instr → Byte
  | .nop => 0x00
  | .pllInit => 0x01
  | .mpptInit => 0x02
  | .mapInit => 0x03
  | .pllUpdate => 0x04
  | .mpptUpdate => 0x05
  | .mapUpdate => 0x06
  | .cycle => 0x07
  | .run => 0x08

/-- The command word of a command: OPCODE in bits 7..0, RSV zero (R91; R97 writes it zext_64(opcode(OP))). -/
def encode (i : Instr) : Word := (opcodeOf i).setWidth 64

/-- Byte lane k of a word: bits 8k+7 .. 8k (R73). -/
def byteLane (w : Word) (k : Nat) : Byte := w.extractLsb' (8 * k) 8

/-- The eight bytes of a word in bus order (R73). -/
def lanesOf (w : Word) : List Byte := (List.range 8).map (byteLane w)

/-- The command's bytes in bus order. -/
def encodeBytes (i : Instr) : List Byte := lanesOf (encode i)

/-- The bytes of an instruction whose table bits are w, nbits of them; every bit above nbits is zero. -/
def tableBytes (nbits w : Nat) : List Byte := lanesOf (BitVec.ofNat 64 (w % 2 ^ nbits))

/-- What the decoder reads from an instruction of the opcode table, its bits numbered as the table numbers them. -/
def decodeTableWord (nbits w : Nat) : Option Instr :=
  match decode (tableBytes nbits w) with
  | .ok (i, _) => some i
  | .error _ => none

end Sys2Proof
end

