-- ==== Sys2Proof/Config.lean ====
section
/-! DEFINITION. What the implementation fixes and the spec leaves open (R8): the channel count and the trigonometric units. -/

namespace Sys2Proof

/-- The channel count less one; N_CHANNELS itself is Machine.nChannels. R8 leaves N_CHANNELS open with N_CHANNELS >= 1 and
R28 gives it a 32-bit field, so it is one of 1 .. 2^32-1 (assumption log 6). Safe: nothing constrains the value. -/
opaque Config.channelsLessOne : Fin 4294967295

/-- A finite binary64 value as its three fields: sign, biased exponent below 2047, fraction. -/
abbrev Config.FiniteFields := Bool × Fin 2047 × BitVec 52

/-- SIN_F of a finite angle other than +0 (R118): a free finite value for each angle (assumption log 5). Safe. -/
opaque Config.sinFree : F64 → Config.FiniteFields

/-- COS_F of a finite angle other than +0 (R118): a free finite value for each angle (assumption log 5). Safe. -/
opaque Config.cosFree : F64 → Config.FiniteFields

end Sys2Proof
end

