-- ==== Sys2Proof/Machine/Float.lean ====
section
/-! DEFINITION. IEEE 754 binary64 as SPCORE uses it (R11, R12, R17, R73): every operation rounds to nearest, ties to even, on its
own, and every NaN it makes is the canonical one. A finite magnitude is held exactly as a natural number of units of 2^-1074,
the smallest positive subnormal, so that each operation is exact natural-number arithmetic followed by one rounding.

The default results beyond the words of R11 are those of IEEE 754 (PRESUMED, assumption log 11).

The arithmetic operations are irreducible: a proof unfolds one of them only where it names it, and no unifier runs into its numerals. -/

namespace Sys2Proof.Machine

/-- The canonical quiet NaN of every arithmetic NaN result (R17). -/
def fNaN : F64 := 0x7FF8000000000000#64

/-- +0. -/
def fZero : F64 := 0#64

/-- 1.0. -/
def fOne : F64 := 0x3FF0000000000000#64

/-- 2.0. -/
def fTwo : F64 := 0x4000000000000000#64

/-- 4.0. -/
def fFour : F64 := 0x4010000000000000#64

/-- 0.5. -/
def fHalf : F64 := 0x3FE0000000000000#64

/-- TWO_PI, the binary64 nearest to 2π (R12). -/
def twoPi : F64 := 0x401921FB54442D18#64

/-- The sign bit, bit 63 (R73). -/
def fSignBit (x : F64) : Bool := decide (2 ^ 63 ≤ x.toNat)

/-- Bits 62..0 as a number: on non-NaN values it is ordered as the absolute value is. -/
def fMag (x : F64) : Nat := x.toNat % 2 ^ 63

/-- Bits 62..0 of an infinity: exponent field all ones, fraction zero. -/
def infMag : Nat := 0x7FF0000000000000

/-- isNaN (R12): exponent field all ones, fraction not zero. -/
def isNaN (x : F64) : Bool := decide (infMag < fMag x)

/-- One of the two infinities. -/
def isInf (x : F64) : Bool := fMag x == infMag

/-- isFinite (R12): neither NaN nor infinite. -/
def isFinite (x : F64) : Bool := decide (fMag x < infMag)

/-- The pattern with a given sign and bits 62..0. -/
def fPack (neg : Bool) (mag : Nat) : F64 := BitVec.ofNat 64 ((if neg then 2 ^ 63 else 0) + mag)

/-- The value of a finite magnitude in units of 2^-1074: the fraction where the exponent field is 0 (subnormals, R17), otherwise
the fraction with its hidden bit, shifted by the exponent field less one (R73). -/
def magUnits (mag : Nat) : Nat :=
  if mag / 2 ^ 52 = 0 then mag % 2 ^ 52 else (2 ^ 52 + mag % 2 ^ 52) * 2 ^ (mag / 2 ^ 52 - 1)

/-- The absolute value of a finite binary64 in units of 2^-1074. -/
def units (x : F64) : Nat := magUnits (fMag x)

/-- The value of a finite binary64 in units of 2^-1074. -/
def signedUnits (x : F64) : Int := if fSignBit x then -(units x : Int) else units x

/-- n / d rounded to the nearest natural number, ties to even. -/
def divNearestEven (n d : Nat) : Nat :=
  if 2 * (n % d) < d then n / d
  else if d < 2 * (n % d) then n / d + 1
  else if n / d % 2 = 0 then n / d else n / d + 1

/-- How many low bits of n / d (units of 2^-1074) lie below a 53-bit significand. -/
def roundShift (n d : Nat) : Nat := Nat.log2 (n / d) - 52

/-- The bits 62..0 of the binary64 nearest to n / d units of 2^-1074, ties to even; too large a result is the infinity (R11). -/
@[irreducible] def roundMag (n d : Nat) : Nat :=
  min infMag (roundShift n d * 2 ^ 52 + divNearestEven n (d * 2 ^ roundShift n d))

/-- a + b (R11). A zero sum is -0 only where both operands are negative zeros. -/
@[irreducible] def fAdd (x y : F64) : F64 :=
  if isNaN x || isNaN y then fNaN
  else if isInf x then (if isInf y && fSignBit x != fSignBit y then fNaN else x)
  else if isInf y then y
  else if signedUnits x + signedUnits y = 0 then fPack (fSignBit x && fSignBit y) 0
  else fPack (decide (signedUnits x + signedUnits y < 0)) (roundMag (signedUnits x + signedUnits y).natAbs 1)

/-- -a (R11, R17): the sign bit flips, of a NaN too. -/
def fNegate (x : F64) : F64 := x ^^^ 0x8000000000000000#64

/-- a - b (R11). -/
def fSub (x y : F64) : F64 := fAdd x (fNegate y)

/-- a * b (R11). -/
@[irreducible] def fMul (x y : F64) : F64 :=
  if isNaN x || isNaN y then fNaN
  else if isInf x || isInf y then
    (if fMag x = 0 || fMag y = 0 then fNaN else fPack (fSignBit x != fSignBit y) infMag)
  else fPack (fSignBit x != fSignBit y) (roundMag (units x * units y) (2 ^ 1074))

/-- a / b (R11): default results, 0/0 and inf/inf NaN, x/0 an infinity. -/
@[irreducible] def fDiv (x y : F64) : F64 :=
  if isNaN x || isNaN y then fNaN
  else if isInf x then (if isInf y then fNaN else fPack (fSignBit x != fSignBit y) infMag)
  else if isInf y then fPack (fSignBit x != fSignBit y) 0
  else if fMag y = 0 then (if fMag x = 0 then fNaN else fPack (fSignBit x != fSignBit y) infMag)
  else fPack (fSignBit x != fSignBit y) (roundMag (units x * 2 ^ 1074) (units y))

/-- The order of the non-NaN values: bits 62..0 with the sign, both zeros 0. -/
def fKey (x : F64) : Int := if fSignBit x then -(fMag x : Int) else fMag x

/-- a < b (R11): false with a NaN operand. -/
def fLt (x y : F64) : Bool := !isNaN x && !isNaN y && decide (fKey x < fKey y)

/-- a <= b (R11): false with a NaN operand. -/
def fLe (x y : F64) : Bool := !isNaN x && !isNaN y && decide (fKey x ≤ fKey y)

/-- a > b (R11). -/
def fGt (x y : F64) : Bool := fLt y x

/-- a >= b (R11). -/
def fGe (x y : F64) : Bool := fLe y x

/-- a == b (R11): false with a NaN operand, true of the two zeros. -/
def fEq (x y : F64) : Bool := !isNaN x && !isNaN y && decide (fKey x = fKey y)

/-- a != b (R11): true with a NaN operand. -/
def fNe (x y : F64) : Bool := !fEq x y

/-- The value of sign(x) (R12). -/
inductive Sign where
  | neg
  | zero
  | pos
  /-- x is NaN. -/
  | none
  deriving DecidableEq, Repr

/-- sign(x) (R12). -/
def fSign (x : F64) : Sign :=
  if fLt x fZero then .neg
  else if fGt x fZero then .pos
  else if fEq x fZero then .zero
  else .none

/-- The integer nearest to a finite |x|, halfway cases away from zero (R12). -/
def nearestInt (x : F64) : Nat := (2 * units x + 2 ^ 1074) / 2 ^ 1075

/-- roundHalfAway(x) (R12): the integer-valued binary64 nearest to x, halfway cases away from zero, the sign kept. An infinity is
its own result (DEDUCED, assumption log 8); a NaN never reaches it (R171). -/
@[irreducible] def roundHalfAway (x : F64) : F64 :=
  if isFinite x then fPack (fSignBit x) (roundMag (nearestInt x * 2 ^ 1074) 1) else x

/-- The binary64 nearest to n / d: what a decimal literal denotes (R11, R97). -/
@[irreducible] def fOfRatio (neg : Bool) (n d : Nat) : F64 := fPack neg (roundMag (n * 2 ^ 1074) d)

/-- binary64(n) (R171). -/
@[irreducible] def fOfNat (n : Nat) : F64 := fPack false (roundMag (n * 2 ^ 1074) 1)

/-- The natural number that a finite, integer-valued binary64 that is not negative holds (R171). -/
@[irreducible] def fToNat (x : F64) : Nat := units x / 2 ^ 1074

/-- A finite binary64 from its fields (R73). -/
def fOfFields (f : Config.FiniteFields) : F64 := fPack f.1 (f.2.1.val * 2 ^ 52 + f.2.2.toNat)

/-- SIN_F (R118): +0 at +0, the canonical NaN of a NaN or an infinity, a free finite value elsewhere. -/
@[irreducible] def sinF (x : F64) : F64 :=
  if x = fZero then fZero
  else if isFinite x then fOfFields (Config.sinFree x)
  else fNaN

/-- COS_F (R118): 1.0 at +0, the canonical NaN of a NaN or an infinity, a free finite value elsewhere. -/
@[irreducible] def cosF (x : F64) : F64 :=
  if x = fZero then fOne
  else if isFinite x then fOfFields (Config.cosFree x)
  else fNaN

end Sys2Proof.Machine
end

