-- ==== Sys2Proof/Machine/State.lean ====
section
/-! DEFINITION. The state of SPCORE (10_state.md): every register of R21, the hidden state of R45 to R47, the event history of R62, and
the agenda, the model's own field that says which agent's transition comes next. All of it is plain data. -/

namespace Sys2Proof.Machine

/-- The seven error causes (R200). -/
inductive Cause where
  | busAlign
  | busUnmapped
  | writeRo
  | busy
  | cmdReserved
  | cmdIllegal
  | dutyRange
  deriving DecidableEq, Repr

/-- What ERR_CAUSE holds of the first error recorded (R26, R201): the cause, bits 9..0 of the address, and whether it was a write. -/
structure ErrRecord where
  cause : Cause
  offset : Offset
  wr : Bool
  deriving DecidableEq, Repr

/-- SEQ (R46), the sequencer state. -/
inductive Seq where
  | idle
  | exec
  | acqGrid
  | acqPv
  | compute
  | waitTick
  deriving DecidableEq, Repr

/-- MODE (R46): LOOP only after RUN. -/
inductive Mode where
  | once
  | loop
  deriving DecidableEq, Repr

/-- The sticky bits of STATUS (R25). -/
structure Sticky where
  err : Bool
  errMulti : Bool
  dutySatHi : Bool
  dutySatLo : Bool
  angleRange : Bool
  nonfinite : Bool
  mapSat : Bool
  deriving DecidableEq, Repr

/-- The configuration registers 0x040..0x0A0 (R29, R30, R31). -/
structure ConfigRegs where
  fNom : F64
  ts : F64
  k : F64
  lfB0 : F64
  lfB1 : F64
  kp : F64
  ki : F64
  qscale : F64
  mpptDelta : F64
  dutyMin : F64
  dutyMax : F64
  periodTicks : U32
  deadTime : U32
  deriving DecidableEq, Repr

/-- The input registers SAMPLE_IN, PV_V_IN, PV_I_IN (R32). -/
structure InputRegs where
  sampleIn : F64
  pvV : F64
  pvI : F64
  deriving DecidableEq, Repr

/-- The PLL state registers 0x100..0x190 (R33 to R38). -/
structure PllRegs where
  freq : F64
  angle : F64
  sin : F64
  cos : F64
  qerr : F64
  qerr1 : F64
  derr : F64
  lf0 : F64
  lf1 : F64
  integ : F64
  u0 : F64
  u1 : F64
  u2 : F64
  ip0 : F64
  ip1 : F64
  ip2 : F64
  qd0 : F64
  qd1 : F64
  qd2 : F64
  deriving DecidableEq, Repr

/-- The OSG coefficients COEF_* (R39). -/
structure CoefRegs where
  b0 : F64
  b2 : F64
  a1 : F64
  a2 : F64
  qb0 : F64
  qb1 : F64
  qb2 : F64
  deriving DecidableEq, Repr

/-- MPPT_PREV_V, MPPT_PREV_P, MPPT_DUTY (R40). -/
structure MpptRegs where
  prevV : F64
  prevP : F64
  duty : F64
  deriving DecidableEq, Repr

/-- The PLL snapshot Fn, Tsn, Kn, B0n, B1n, KPn, KIn, QSn (R45). -/
structure PllSnap where
  fn : F64
  ts : F64
  k : F64
  b0 : F64
  b1 : F64
  kp : F64
  ki : F64
  qs : F64
  deriving DecidableEq, Repr

/-- The MPPT snapshot DELTAn, MINn, MAXn (R45). -/
structure MpptSnap where
  delta : F64
  min : F64
  max : F64
  deriving DecidableEq, Repr

/-- The mapper snapshot PERn, DTn (R45). -/
structure MapSnap where
  per : U32
  dt : U32
  deriving DecidableEq, Repr

/-- An event of the history (R62). A bus transaction is kept with its result: the data of a read and the error it raised, if any (DEDUCED,
assumption log 12). -/
inductive Event where
  | read (addr : Offset) (size : Nat) (data : Word) (err : Option Cause)
  | write (addr : Offset) (size : Nat) (data : Word) (err : Option Cause)
  | grid (g : F64)
  | pv (v i : F64)
  | setDuty (ticks : U32)
  | actConfig (period deadTime : U32)
  | tick
  | reset
  deriving DecidableEq, Repr

/-- A transition that some agent is going to make (R14, R79): the host's bus transactions (R71, R72) and its script's poll (R97), the
deliveries of the two sample sources, the cadence tick, the external reset, and the core taking its own enabled step. -/
inductive Move where
  | read (addr : Offset) (size : Nat)
  | write (addr : Offset) (size : Nat) (data : Word)
  /-- Read a register again and again until the bits under the mask equal the value (R97). -/
  | poll (addr : Offset) (mask value : Word)
  | grid (g : F64)
  | pv (v i : F64)
  | tick
  | reset
  | core
  deriving DecidableEq, Repr

/-- The state of the machine. -/
structure State where
  /-- CTRL bits 1..0: PLL_STRAT and MPPT_POL; bits 63..2 are not stored (R22, R44). -/
  ctrl : BitVec 2
  /-- ACTIVE bits 1..0: PLL_ACT and MPPT_ACT (R27). -/
  active : BitVec 2
  /-- STATUS.BUSY (R24). -/
  busy : Bool
  /-- STATUS.RUNNING (R24). -/
  running : Bool
  /-- SEQ, seen as STATUS.SEQ (R24, R46). -/
  seq : Seq
  /-- PENDING, the accepted command not yet completed (R46). -/
  pending : Option Instr
  /-- MODE (R46). -/
  mode : Mode
  /-- TICK_PENDING (R47). -/
  tickPending : Bool
  /-- The sticky bits of STATUS (R25). -/
  sticky : Sticky
  /-- ERR_CAUSE; none is the record with all fields 0 (R26). -/
  errCause : Option ErrRecord
  /-- The configuration registers (R29 to R31). -/
  cfg : ConfigRegs
  /-- The input registers (R32). -/
  inp : InputRegs
  /-- The PLL state registers (R33 to R38). -/
  pll : PllRegs
  /-- The OSG coefficients (R39). -/
  coef : CoefRegs
  /-- The MPPT state (R40). -/
  mppt : MpptRegs
  /-- MAP_ON_TICKS bits 31..0 (R42). -/
  mapOnTicks : U32
  /-- The PLL snapshot (R45). -/
  pllSnap : PllSnap
  /-- The MPPT snapshot (R45). -/
  mpptSnap : MpptSnap
  /-- The mapper snapshot (R45). -/
  mapSnap : MapSnap
  /-- The event history, oldest first (R62). -/
  history : List Event
  /-- THE MODEL'S OWN FIELD: the transitions still to come, in the one total order of R79 (DESIGN CHOICE, assumption log 1). -/
  agenda : List Move
  deriving DecidableEq, Repr

/-- Why the machine stops. The spec stops for nothing (R204, R207); this names what R188 has no row for. -/
inductive Fault where
  /-- A command is asked for a transition in a sequencer state for which R188 gives it no row, or the core is to act in a state whose
  PENDING is none. Raised by the meanings and by the core step; no state that a run reaches raises it. Safe (assumption log 9). -/
  | noTransition
  deriving DecidableEq, Repr

/-- Why the machine refuses an instruction. -/
inductive Refusal where
  /-- The instruction has no meaning yet; its arm of exec says so. Raised by exec alone. Safe. -/
  | notModelled (mnemonic : String)
  deriving DecidableEq, Repr

/-- The state right after the first reset (R230, R231, R232): every register at its reset value of R21, the snapshots at the reset
values of their sources, the sequencer idle, and a history that holds the reset itself (DEDUCED, assumption log 7). -/
def State.reset : State where
  ctrl := 0
  active := 0
  busy := false
  running := false
  seq := .idle
  pending := none
  mode := .once
  tickPending := false
  sticky :=
    { err := false, errMulti := false, dutySatHi := false, dutySatLo := false, angleRange := false, nonfinite := false, mapSat := false }
  errCause := none
  cfg :=
    { fNom := 0x4049000000000000#64
      ts := 0x3EF4F8B588E368F1#64
      k := 0x3FE0000000000000#64
      lfB0 := 0
      lfB1 := 0
      kp := 0
      ki := 0
      qscale := 0
      mpptDelta := 0x3F747AE147AE147B#64
      dutyMin := 0x3FA999999999999A#64
      dutyMax := 0x3FEE666666666666#64
      periodTicks := 0
      deadTime := 0 }
  inp := { sampleIn := 0, pvV := 0, pvI := 0 }
  pll :=
    { freq := 0, angle := 0, sin := 0, cos := 0x3FF0000000000000#64
      qerr := 0, qerr1 := 0, derr := 0, lf0 := 0, lf1 := 0, integ := 0
      u0 := 0, u1 := 0, u2 := 0, ip0 := 0, ip1 := 0, ip2 := 0, qd0 := 0, qd1 := 0, qd2 := 0 }
  coef :=
    { b0 := 0x3F59B1FFEC1E8D38#64
      b2 := 0xBF59B1FFEC1E8D38#64
      a1 := 0x3FFFF2FDAB5B37EC#64
      a2 := 0xBFEFE64E0013E173#64
      qb0 := 0x3ED4AA575C672B2A#64
      qb1 := 0x3EE4AA575C672B2A#64
      qb2 := 0x3ED4AA575C672B2A#64 }
  mppt := { prevV := 0, prevP := 0, duty := 0 }
  mapOnTicks := 0
  pllSnap :=
    { fn := 0x4049000000000000#64, ts := 0x3EF4F8B588E368F1#64, k := 0x3FE0000000000000#64
      b0 := 0, b1 := 0, kp := 0, ki := 0, qs := 0 }
  mpptSnap := { delta := 0x3F747AE147AE147B#64, min := 0x3FA999999999999A#64, max := 0x3FEE666666666666#64 }
  mapSnap := { per := 0, dt := 0 }
  history := [.reset]
  agenda := []

end Sys2Proof.Machine
end

