-- ==== Sys2Proof/Machine/Ops.lean ====
section
/-! DEFINITION. The operations that several meanings share: recording events, taking an error and clearing it, accepting and completing a
command, reset and ticks, and the requests and level outputs that are functions of the state. -/

namespace Sys2Proof.Machine

/-- emit E (R10): append an event to the history. -/
def State.emit (e : Event) (s : State) : State := { s with history := s.history ++ [e] }

/-- The next transition of the agenda is taken off it. -/
def State.pop (s : State) : State := { s with agenda := s.agenda.tail }

/-- A transition is put at the head of the agenda. -/
def State.push (m : Move) (s : State) : State := { s with agenda := m :: s.agenda }

/-- GRID_REQ (R48): the core waits for the grid sample source. -/
def State.gridReq (s : State) : Bool := s.seq == .acqGrid

/-- PV_REQ (R48): the core waits for the PV sample source. -/
def State.pvReq (s : State) : Bool := s.seq == .acqPv

/-- PLL strategy B is active (R27, PLL_ACT). -/
def State.pllActB (s : State) : Bool := s.active.getLsbD 0

/-- MPPT policy B is active (R27, MPPT_ACT). -/
def State.mpptActB (s : State) : Bool := s.active.getLsbD 1

/-- N_CHANNELS (R8, R28): the open parameter, at least 1. -/
def nChannels : U32 := BitVec.ofNat 32 (Config.channelsLessOne.val + 1)

/-- The level output act_ticks (R60). -/
def State.actTicks (s : State) : U32 := s.mapOnTicks

/-- The level output act_period (R60). -/
def State.actPeriod (s : State) : U32 := s.mapSnap.per

/-- The level output act_dead_time (R60, R174). -/
def State.actDeadTime (s : State) : U32 := s.mapSnap.dt

/-- The level output act_channels (R60, R173): the parameter, whatever the state. -/
def State.actChannels (_ : State) : U32 := nChannels

/-- TAKING AN ERROR (R201): the first error since ERR was clear is recorded in ERR_CAUSE; a later one only sets ERR_MULTI. Nothing else
changes and control does not move (R207). -/
def raiseErr (c : Cause) (addr : Offset) (wr : Bool) (s : State) : State :=
  if s.sticky.err then { s with sticky := { s.sticky with errMulti := true } }
  else { s with sticky := { s.sticky with err := true }, errCause := some { cause := c, offset := addr, wr := wr } }

/-- The sticky bits after a STATUS write of v (R25): each bit written 1 is cleared, and bit 8 clears ERR_MULTI with ERR. -/
def clearedSticky (v : Word) (k : Sticky) : Sticky where
  err := k.err && !v.getLsbD 8
  errMulti := k.errMulti && !v.getLsbD 8 && !v.getLsbD 9
  dutySatHi := k.dutySatHi && !v.getLsbD 16
  dutySatLo := k.dutySatLo && !v.getLsbD 17
  angleRange := k.angleRange && !v.getLsbD 18
  nonfinite := k.nonfinite && !v.getLsbD 19
  mapSat := k.mapSat && !v.getLsbD 20

/-- THE RETURN FROM AN ERROR and the W1C write to STATUS (R25, R82, R201, R208): bit 8 clears ERR, ERR_MULTI and ERR_CAUSE together;
every other bit is cleared alone. The live fields are not written (R24). -/
def clearStatus (v : Word) (s : State) : State :=
  { s with sticky := clearedSticky v s.sticky, errCause := if v.getLsbD 8 then none else s.errCause }

/-- SEQ after a command is accepted (R180). -/
def acceptedSeq : Instr → Seq
  | .cycle | .run => .acqGrid
  | .nop | .pllInit | .mpptInit | .mapInit | .pllUpdate | .mpptUpdate | .mapUpdate => .exec

/-- MODE after a command is accepted (R180). -/
def acceptedMode (i : Instr) (m : Mode) : Mode :=
  match i with
  | .cycle => .once
  | .run => .loop
  | .nop | .pllInit | .mpptInit | .mapInit | .pllUpdate | .mpptUpdate | .mapUpdate => m

/-- Acceptance (R180, R188). -/
def accept (i : Instr) (s : State) : State :=
  { s with
    pending := some i
    busy := true
    mode := acceptedMode i s.mode
    running := s.running || i == .run
    seq := acceptedSeq i }

/-- Completion (R180, R188): PENDING <- none, BUSY <- 0, SEQ <- IDLE. -/
def complete (s : State) : State := { s with pending := none, busy := false, seq := .idle }

/-- The transitions of a command that executes in EXEC (R180, R188): acceptance in IDLE, and in EXEC its body with its completion, one
atomic step (R187). R188 has no other row for it (assumption log 9). -/
def runInExec (i : Instr) (body : State → State) (s : State) : Host.Outcome State Fault Refusal :=
  match s.seq with
  | .idle => .next (accept i s)
  | .exec => .next (complete (body s))
  | .acqGrid | .acqPv | .compute | .waitTick => .fault .noTransition

/-- A cadence tick (R47, R186): it is latched only while RUNNING, and ticks merge. The history holds every tick (R62). -/
def takeTick (s : State) : State :=
  { s with tickPending := s.tickPending || s.running, history := s.history ++ [.tick] }

/-- Reset (R230, R231): every register and all hidden state at their reset values, whatever was in progress; the history keeps what it
held and takes the reset. The agenda is the environment's and is not reset (assumption log 1). -/
def resetMachine (s : State) : State :=
  { State.reset with history := s.history ++ [.reset], agenda := s.agenda }

end Sys2Proof.Machine
end

