-- ==== Sys2Proof/Machine/Flags.lean ====
section
/-! DEFINITION. STATUS and ERR_CAUSE as the host reads them, and every flag computation: the sticky bits are set by the events of R25 and
never read by a computation (R25, R49). -/

namespace Sys2Proof.Machine

/-- The cause codes (R200). -/
def Cause.code : Cause → BitVec 8
  | .busAlign => 1
  | .busUnmapped => 2
  | .writeRo => 3
  | .busy => 4
  | .cmdReserved => 5
  | .cmdIllegal => 6
  | .dutyRange => 7

/-- The code of SEQ in STATUS bits 4..2 (R24). -/
def Seq.code : Seq → BitVec 3
  | .idle => 0
  | .exec => 1
  | .acqGrid => 2
  | .acqPv => 3
  | .compute => 4
  | .waitTick => 5

/-- STATUS as read (R24, R25), from bit 63 down: 43 reserved bits, MAP_SAT, NONFINITE, ANGLE_RANGE, DUTY_SAT_LO, DUTY_SAT_HI, 6 reserved
bits, ERR_MULTI, ERR, 3 reserved bits, SEQ, RUNNING, BUSY. -/
def statusWord (s : State) : Word :=
  0#43 ++ BitVec.ofBool s.sticky.mapSat ++ BitVec.ofBool s.sticky.nonfinite ++ BitVec.ofBool s.sticky.angleRange
    ++ BitVec.ofBool s.sticky.dutySatLo ++ BitVec.ofBool s.sticky.dutySatHi ++ 0#6 ++ BitVec.ofBool s.sticky.errMulti
    ++ BitVec.ofBool s.sticky.err ++ 0#3 ++ s.seq.code ++ BitVec.ofBool s.running ++ BitVec.ofBool s.busy

/-- ERR_CAUSE as read (R26): WR bit 18, OFFSET bits 17..8, CAUSE bits 7..0; all 0 where nothing is recorded. -/
def errCauseWord : Option ErrRecord → Word
  | none => 0
  | some r => 0#45 ++ BitVec.ofBool r.wr ++ r.offset ++ r.cause.code

/-- The angle lies in [0, TWO_PI) (R117); a NaN does not. -/
def angleInRange (a : F64) : Bool := fGe a fZero && fLt a twoPi

/-- Some coefficient is not finite (R110). -/
def coefNonfinite (c : CoefRegs) : Bool :=
  !(isFinite c.b0 && isFinite c.b2 && isFinite c.a1 && isFinite c.a2 && isFinite c.qb0 && isFinite c.qb1 && isFinite c.qb2)

/-- Some register of the list of R121 is not finite. -/
def pllNonfinite (p : PllRegs) : Bool :=
  !(isFinite p.freq && isFinite p.angle && isFinite p.sin && isFinite p.cos && isFinite p.qerr && isFinite p.derr
    && isFinite p.lf0 && isFinite p.integ && isFinite p.u0 && isFinite p.ip0 && isFinite p.qd0)

/-- DUTY or PREV_P, or under policy A PREV_V, is not finite (R156). -/
def mpptNonfinite (policyB : Bool) (m : MpptRegs) : Bool :=
  !(isFinite m.duty && isFinite m.prevP && (policyB || isFinite m.prevV))

/-- The sticky bits after a PLL_INIT that left the coefficients c (R110): NONFINITE is only ever set. -/
def stickyAfterPllInit (c : CoefRegs) (k : Sticky) : Sticky :=
  { k with nonfinite := k.nonfinite || coefNonfinite c }

/-- The sticky bits after a PLL update that left the registers p (R117, R121). -/
def stickyAfterPll (p : PllRegs) (k : Sticky) : Sticky :=
  { k with angleRange := k.angleRange || !angleInRange p.angle, nonfinite := k.nonfinite || pllNonfinite p }

/-- The candidate is clamped down to MAXn (R152). -/
def clampsHigh (n : MpptSnap) (c : F64) : Bool := fGt c n.max

/-- The candidate is clamped up to MINn (R152): tested only where it is not above MAXn. -/
def clampsLow (n : MpptSnap) (c : F64) : Bool := !fGt c n.max && fLt c n.min

/-- The sticky bits after an MPPT update with candidate c that left the registers m (R152, R156). -/
def stickyAfterMppt (n : MpptSnap) (policyB : Bool) (c : F64) (m : MpptRegs) (k : Sticky) : Sticky :=
  { k with
    dutySatHi := k.dutySatHi || clampsHigh n c
    dutySatLo := k.dutySatLo || clampsLow n c
    nonfinite := k.nonfinite || mpptNonfinite policyB m }

/-- The sticky bits after a mapper update (R171, R172). -/
def stickyAfterMap (saturated : Bool) (k : Sticky) : Sticky := { k with mapSat := k.mapSat || saturated }

end Sys2Proof.Machine
end

