-- ==== Sys2Proof/Machine/Operands.lean ====
section
/-! DEFINITION. The operands: the register map (R21), reading and storing a register by its name, the byte lanes of the register space
(R73), and the operands the INIT commands latch (R45, R95). -/

namespace Sys2Proof.Machine

/-- The registers of the map (R21), each under its own name. -/
inductive Reg where
  /-- CTRL, 0x000. -/
  | ctrl
  /-- CMD, 0x008. -/
  | cmd
  /-- STATUS, 0x010. -/
  | status
  /-- ERR_CAUSE, 0x018. -/
  | errCause
  /-- ACTIVE, 0x020. -/
  | active
  /-- N_CHANNELS, 0x028. -/
  | nChannels
  /-- F_NOM, 0x040. -/
  | fNom
  /-- TS, 0x048. -/
  | ts
  /-- K, 0x050. -/
  | k
  /-- LF_B0, 0x058. -/
  | lfB0
  /-- LF_B1, 0x060. -/
  | lfB1
  /-- KP, 0x068. -/
  | kp
  /-- KI, 0x070. -/
  | ki
  /-- QSCALE, 0x078. -/
  | qscale
  /-- MPPT_DELTA, 0x080. -/
  | mpptDelta
  /-- DUTY_MIN, 0x088. -/
  | dutyMin
  /-- DUTY_MAX, 0x090. -/
  | dutyMax
  /-- PERIOD_TICKS, 0x098. -/
  | periodTicks
  /-- DEAD_TIME, 0x0A0. -/
  | deadTime
  /-- SAMPLE_IN, 0x0C0. -/
  | sampleIn
  /-- PV_V_IN, 0x0C8. -/
  | pvVIn
  /-- PV_I_IN, 0x0D0. -/
  | pvIIn
  /-- PLL_FREQ, 0x100. -/
  | pllFreq
  /-- PLL_ANGLE, 0x108. -/
  | pllAngle
  /-- PLL_SIN, 0x110. -/
  | pllSin
  /-- PLL_COS, 0x118. -/
  | pllCos
  /-- PLL_QERR, 0x120. -/
  | pllQerr
  /-- PLL_QERR1, 0x128. -/
  | pllQerr1
  /-- PLL_DERR, 0x130. -/
  | pllDerr
  /-- PLL_LF0, 0x138. -/
  | pllLf0
  /-- PLL_LF1, 0x140. -/
  | pllLf1
  /-- PLL_INTEG, 0x148. -/
  | pllInteg
  /-- PLL_U0, 0x150. -/
  | pllU0
  /-- PLL_U1, 0x158. -/
  | pllU1
  /-- PLL_U2, 0x160. -/
  | pllU2
  /-- PLL_IP0, 0x168. -/
  | pllIp0
  /-- PLL_IP1, 0x170. -/
  | pllIp1
  /-- PLL_IP2, 0x178. -/
  | pllIp2
  /-- PLL_QD0, 0x180. -/
  | pllQd0
  /-- PLL_QD1, 0x188. -/
  | pllQd1
  /-- PLL_QD2, 0x190. -/
  | pllQd2
  /-- COEF_B0, 0x1A0. -/
  | coefB0
  /-- COEF_B2, 0x1A8. -/
  | coefB2
  /-- COEF_A1, 0x1B0. -/
  | coefA1
  /-- COEF_A2, 0x1B8. -/
  | coefA2
  /-- COEF_QB0, 0x1C0. -/
  | coefQb0
  /-- COEF_QB1, 0x1C8. -/
  | coefQb1
  /-- COEF_QB2, 0x1D0. -/
  | coefQb2
  /-- MPPT_PREV_V, 0x200. -/
  | mpptPrevV
  /-- MPPT_PREV_P, 0x208. -/
  | mpptPrevP
  /-- MPPT_DUTY, 0x210. -/
  | mpptDuty
  /-- MAP_ON_TICKS, 0x240. -/
  | mapOnTicks
  deriving DecidableEq, Repr

/-- How the host may access a register (R21). -/
inductive Access where
  /-- Read-write. -/
  | rw
  /-- Read-only: a write is refused (R44). -/
  | ro
  /-- Write-only: reads return 0 (R23). -/
  | wo
  /-- Live fields read-only, sticky bits cleared by writing 1 (R24, R25). -/
  | w1c
  /-- Read-write with a validated write (R41). -/
  | rwv
  deriving DecidableEq, Repr

/-- The byte offset of a register (R21). -/
def Reg.offset : Reg → Offset
  | .ctrl => 0x000
  | .cmd => 0x008
  | .status => 0x010
  | .errCause => 0x018
  | .active => 0x020
  | .nChannels => 0x028
  | .fNom => 0x040
  | .ts => 0x048
  | .k => 0x050
  | .lfB0 => 0x058
  | .lfB1 => 0x060
  | .kp => 0x068
  | .ki => 0x070
  | .qscale => 0x078
  | .mpptDelta => 0x080
  | .dutyMin => 0x088
  | .dutyMax => 0x090
  | .periodTicks => 0x098
  | .deadTime => 0x0A0
  | .sampleIn => 0x0C0
  | .pvVIn => 0x0C8
  | .pvIIn => 0x0D0
  | .pllFreq => 0x100
  | .pllAngle => 0x108
  | .pllSin => 0x110
  | .pllCos => 0x118
  | .pllQerr => 0x120
  | .pllQerr1 => 0x128
  | .pllDerr => 0x130
  | .pllLf0 => 0x138
  | .pllLf1 => 0x140
  | .pllInteg => 0x148
  | .pllU0 => 0x150
  | .pllU1 => 0x158
  | .pllU2 => 0x160
  | .pllIp0 => 0x168
  | .pllIp1 => 0x170
  | .pllIp2 => 0x178
  | .pllQd0 => 0x180
  | .pllQd1 => 0x188
  | .pllQd2 => 0x190
  | .coefB0 => 0x1A0
  | .coefB2 => 0x1A8
  | .coefA1 => 0x1B0
  | .coefA2 => 0x1B8
  | .coefQb0 => 0x1C0
  | .coefQb1 => 0x1C8
  | .coefQb2 => 0x1D0
  | .mpptPrevV => 0x200
  | .mpptPrevP => 0x208
  | .mpptDuty => 0x210
  | .mapOnTicks => 0x240

/-- The access type of a register (R21). -/
def Reg.access : Reg → Access
  | .ctrl | .fNom | .ts | .k | .lfB0 | .lfB1 | .kp | .ki | .qscale | .mpptDelta | .dutyMin | .dutyMax | .periodTicks
  | .deadTime | .sampleIn | .pvVIn | .pvIIn => .rw
  | .cmd => .wo
  | .status => .w1c
  | .errCause | .active | .nChannels | .pllFreq | .pllAngle | .pllSin | .pllCos | .pllQerr | .pllQerr1 | .pllDerr
  | .pllLf0 | .pllLf1 | .pllInteg | .pllU0 | .pllU1 | .pllU2 | .pllIp0 | .pllIp1 | .pllIp2 | .pllQd0 | .pllQd1
  | .pllQd2 | .coefB0 | .coefB2 | .coefA1 | .coefA2 | .coefQb0 | .coefQb1 | .coefQb2 | .mpptPrevV | .mpptPrevP
  | .mapOnTicks => .ro
  | .mpptDuty => .rwv

/-- The registers 0x000 .. 0x0D0. -/
def Reg.control : List Reg :=
  [.ctrl, .cmd, .status, .errCause, .active, .nChannels, .fNom, .ts, .k, .lfB0, .lfB1]
    ++ [.kp, .ki, .qscale, .mpptDelta, .dutyMin, .dutyMax, .periodTicks, .deadTime, .sampleIn, .pvVIn, .pvIIn]

/-- The PLL registers 0x100 .. 0x190. -/
def Reg.pllState : List Reg :=
  [.pllFreq, .pllAngle, .pllSin, .pllCos, .pllQerr, .pllQerr1, .pllDerr, .pllLf0, .pllLf1, .pllInteg]
    ++ [.pllU0, .pllU1, .pllU2, .pllIp0, .pllIp1, .pllIp2, .pllQd0, .pllQd1, .pllQd2]

/-- The coefficient, MPPT and mapper registers 0x1A0 .. 0x240. -/
def Reg.units : List Reg :=
  [.coefB0, .coefB2, .coefA1, .coefA2, .coefQb0, .coefQb1, .coefQb2, .mpptPrevV, .mpptPrevP, .mpptDuty, .mapOnTicks]

/-- Every register of the map, in the order of R21. -/
def Reg.all : List Reg := Reg.control ++ Reg.pllState ++ Reg.units

/-- The register at an offset; none where the offset is unmapped (R43). -/
def Reg.ofOffset (a : Offset) : Option Reg := Reg.all.find? fun r => r.offset == a

/-- The 64-bit content of a register as a read returns it, reserved bits 0 (R44, R71). -/
def readReg (r : Reg) (s : State) : Word :=
  match r with
  | .ctrl => s.ctrl.setWidth 64
  | .cmd => 0
  | .status => statusWord s
  | .errCause => errCauseWord s.errCause
  | .active => s.active.setWidth 64
  | .nChannels => nChannels.setWidth 64
  | .fNom => s.cfg.fNom
  | .ts => s.cfg.ts
  | .k => s.cfg.k
  | .lfB0 => s.cfg.lfB0
  | .lfB1 => s.cfg.lfB1
  | .kp => s.cfg.kp
  | .ki => s.cfg.ki
  | .qscale => s.cfg.qscale
  | .mpptDelta => s.cfg.mpptDelta
  | .dutyMin => s.cfg.dutyMin
  | .dutyMax => s.cfg.dutyMax
  | .periodTicks => s.cfg.periodTicks.setWidth 64
  | .deadTime => s.cfg.deadTime.setWidth 64
  | .sampleIn => s.inp.sampleIn
  | .pvVIn => s.inp.pvV
  | .pvIIn => s.inp.pvI
  | .pllFreq => s.pll.freq
  | .pllAngle => s.pll.angle
  | .pllSin => s.pll.sin
  | .pllCos => s.pll.cos
  | .pllQerr => s.pll.qerr
  | .pllQerr1 => s.pll.qerr1
  | .pllDerr => s.pll.derr
  | .pllLf0 => s.pll.lf0
  | .pllLf1 => s.pll.lf1
  | .pllInteg => s.pll.integ
  | .pllU0 => s.pll.u0
  | .pllU1 => s.pll.u1
  | .pllU2 => s.pll.u2
  | .pllIp0 => s.pll.ip0
  | .pllIp1 => s.pll.ip1
  | .pllIp2 => s.pll.ip2
  | .pllQd0 => s.pll.qd0
  | .pllQd1 => s.pll.qd1
  | .pllQd2 => s.pll.qd2
  | .coefB0 => s.coef.b0
  | .coefB2 => s.coef.b2
  | .coefA1 => s.coef.a1
  | .coefA2 => s.coef.a2
  | .coefQb0 => s.coef.qb0
  | .coefQb1 => s.coef.qb1
  | .coefQb2 => s.coef.qb2
  | .mpptPrevV => s.mppt.prevV
  | .mpptPrevP => s.mppt.prevP
  | .mpptDuty => s.mppt.duty
  | .mapOnTicks => s.mapOnTicks.setWidth 64

/-- Store into a register that the host may write, reserved bits ignored (R44, R72). The registers that are not stored into are the
read-only ones, CMD and STATUS, whose writes R72 handles otherwise. -/
def storeReg (r : Reg) (v : Word) (s : State) : State :=
  match r with
  | .ctrl => { s with ctrl := v.setWidth 2 }
  | .fNom => { s with cfg := { s.cfg with fNom := v } }
  | .ts => { s with cfg := { s.cfg with ts := v } }
  | .k => { s with cfg := { s.cfg with k := v } }
  | .lfB0 => { s with cfg := { s.cfg with lfB0 := v } }
  | .lfB1 => { s with cfg := { s.cfg with lfB1 := v } }
  | .kp => { s with cfg := { s.cfg with kp := v } }
  | .ki => { s with cfg := { s.cfg with ki := v } }
  | .qscale => { s with cfg := { s.cfg with qscale := v } }
  | .mpptDelta => { s with cfg := { s.cfg with mpptDelta := v } }
  | .dutyMin => { s with cfg := { s.cfg with dutyMin := v } }
  | .dutyMax => { s with cfg := { s.cfg with dutyMax := v } }
  | .periodTicks => { s with cfg := { s.cfg with periodTicks := v.setWidth 32 } }
  | .deadTime => { s with cfg := { s.cfg with deadTime := v.setWidth 32 } }
  | .sampleIn => { s with inp := { s.inp with sampleIn := v } }
  | .pvVIn => { s with inp := { s.inp with pvV := v } }
  | .pvIIn => { s with inp := { s.inp with pvI := v } }
  | .mpptDuty => { s with mppt := { s.mppt with duty := v } }
  | .cmd | .status | .errCause | .active | .nChannels | .pllFreq | .pllAngle | .pllSin | .pllCos | .pllQerr
  | .pllQerr1 | .pllDerr | .pllLf0 | .pllLf1 | .pllInteg | .pllU0 | .pllU1 | .pllU2 | .pllIp0 | .pllIp1 | .pllIp2
  | .pllQd0 | .pllQd1 | .pllQd2 | .coefB0 | .coefB2 | .coefA1 | .coefA2 | .coefQb0 | .coefQb1 | .coefQb2 | .mpptPrevV
  | .mpptPrevP | .mapOnTicks => s

/-- The byte of the byte-addressed view of the register space at an offset: lane k of the register at the aligned offset below it (R73);
none where that offset is unmapped. -/
def State.byteView (s : State) (a : Offset) : Option Byte :=
  (Reg.ofOffset (a &&& 0x3F8#10)).map fun r => byteLane (readReg r s) (a.toNat % 8)

/-- The PLL snapshot that PLL_INIT takes (R45, R110). -/
def latchPllSnap (c : ConfigRegs) : PllSnap where
  fn := c.fNom
  ts := c.ts
  k := c.k
  b0 := c.lfB0
  b1 := c.lfB1
  kp := c.kp
  ki := c.ki
  qs := c.qscale

/-- The MPPT snapshot that MPPT_INIT takes (R45, R150). -/
def latchMpptSnap (c : ConfigRegs) : MpptSnap where
  delta := c.mpptDelta
  min := c.dutyMin
  max := c.dutyMax

/-- The mapper snapshot that MAP_INIT takes (R45, R170). -/
def latchMapSnap (c : ConfigRegs) : MapSnap where
  per := c.periodTicks
  dt := c.deadTime

/-- ACTIVE after PLL_INIT (R27, R110): PLL_ACT <- CTRL.PLL_STRAT, MPPT_ACT kept. -/
def latchPllAct (ctrl active : BitVec 2) : BitVec 2 := BitVec.ofBool (active.getLsbD 1) ++ BitVec.ofBool (ctrl.getLsbD 0)

/-- ACTIVE after MPPT_INIT (R27, R150): MPPT_ACT <- CTRL.MPPT_POL, PLL_ACT kept. -/
def latchMpptAct (ctrl active : BitVec 2) : BitVec 2 := BitVec.ofBool (ctrl.getLsbD 1) ++ BitVec.ofBool (active.getLsbD 0)

end Sys2Proof.Machine
end

