-- ==== Sys2Proof/Machine/Bus.lean ====
section
/-! DEFINITION. The host bus (20_memory.md): BusRead, BusWrite with its checks in their order, and the script's poll (R97). -/

namespace Sys2Proof.Machine

/-- The access is not one aligned 64-bit access (R71, R72, R74). -/
def misaligned (addr : Offset) (size : Nat) : Bool := size != 8 || addr.toNat % 8 != 0

/-- What a read returns and the error it raises (R71). -/
def readResult (addr : Offset) (size : Nat) (s : State) : Word × Option Cause :=
  if misaligned addr size then (0, some .busAlign)
  else
    match Reg.ofOffset addr with
    | none => (0, some .busUnmapped)
    | some r => (readReg r s, none)

/-- The state with the error that a transaction raised recorded, if it raised one (R201). -/
def recordErr (err : Option Cause) (addr : Offset) (wr : Bool) (s : State) : State :=
  match err with
  | none => s
  | some c => raiseErr c addr wr s

/-- BusRead (R71): no state changes but the error record and the history. -/
def busRead (addr : Offset) (size : Nat) (s : State) : State :=
  (recordErr (readResult addr size s).2 addr false s).emit (.read addr size (readResult addr size s).1 (readResult addr size s).2)

/-- A value that MPPT_DUTY accepts: 0.0 <= v <= 1.0, either zero included, no NaN (R41). -/
def dutyInRange (v : F64) : Bool := fLe fZero v && fLe v fOne

/-- What a bus write does (R72). -/
inductive WriteAction where
  /-- The transaction raises this error and has no other effect. -/
  | refuse (c : Cause)
  /-- STATUS: the sticky bits written 1 are cleared. -/
  | clear
  /-- CMD: the command is issued. -/
  | issue (i : Instr)
  /-- The value is stored into the register. -/
  | store (r : Reg)
  deriving DecidableEq, Repr

/-- The error of a command word that is no command (R92, R94); a word is never truncated. -/
def causeOfDecodeError : DecodeError → Cause
  | .illegal => .cmdIllegal
  | .reserved | .truncated => .cmdReserved

/-- What a write of v to the register r does, the alignment and mapping checks passed (R72, R203): read-only, then STATUS, then BUSY, then
the command word or the duty range. -/
def registerWriteAction (r : Reg) (v : Word) (s : State) : WriteAction :=
  if r.access = .ro then .refuse .writeRo
  else if r = .status then .clear
  else if s.busy then .refuse .busy
  else if r = .cmd then
    match decodeWord v with
    | .ok i => .issue i
    | .error e => .refuse (causeOfDecodeError e)
  else if r = .mpptDuty && !dutyInRange v then .refuse .dutyRange
  else .store r

/-- What a bus write does: the checks of R72 in their order (R202), the first that applies decides. -/
def writeAction (addr : Offset) (size : Nat) (v : Word) (s : State) : WriteAction :=
  if misaligned addr size then .refuse .busAlign
  else
    match Reg.ofOffset addr with
    | none => .refuse .busUnmapped
    | some r => registerWriteAction r v s

/-- The error a write's action raises. -/
def WriteAction.error : WriteAction → Option Cause
  | .refuse c => some c
  | .clear | .issue _ | .store _ => none

/-- The effect of a bus write itself on the state (R72, R200, R201), the history with it (R62). The acceptance of an issued command is the
first transition of that command (R180). -/
def busWrite (act : WriteAction) (addr : Offset) (size : Nat) (v : Word) (s : State) : State :=
  State.emit (.write addr size v act.error)
    (match act with
      | .refuse c => raiseErr c addr true s
      | .clear => clearStatus v s
      | .issue _ => s
      | .store r => storeReg r v s)

/-- One read of a poll (R97): if the bits under the mask do not equal the value, the poll stays to be made again, after the core has had
its turn (R189; assumption log 4). -/
def pollRead (addr : Offset) (mask value : Word) (s : State) : State :=
  if (readResult addr 8 s).1 &&& mask = value then busRead addr 8 s
  else ((busRead addr 8 s).push (.poll addr mask value)).push .core

end Sys2Proof.Machine
end

