-- ==== Sys2Proof/Machine/Mapper.lean ====
section
/-! DEFINITION. MAP_INIT and MAP_UPDATE (42_mapper.md). -/

namespace Sys2Proof.Machine

/-- The body of MAP_INIT (R170). -/
def mapInitBody (s : State) : State :=
  { s with
    mapSnap := latchMapSnap s.cfg
    mapOnTicks := 0
    history := s.history ++ [.actConfig s.cfg.periodTicks s.cfg.deadTime] }

/-- MAP_INIT (R170). -/
def execMapInit (s : State) : Host.Outcome State Fault Refusal := runInExec .mapInit mapInitBody s

/-- The product t = binary64(PERn) * duty (R171). -/
def mapProduct (per : U32) (duty : F64) : F64 := fMul (fOfNat per.toNat) duty

/-- The mapper saturates or replaces its result (R171, R172): the product is NaN, negative after rounding, or above PERn. -/
def mapSaturates (per : U32) (duty : F64) : Bool :=
  isNaN (mapProduct per duty) || fLt (roundHalfAway (mapProduct per duty)) fZero
    || fGt (roundHalfAway (mapProduct per duty)) (fOfNat per.toNat)

/-- The ON-time count k (R171). -/
def mapTicks (per : U32) (duty : F64) : U32 :=
  if isNaN (mapProduct per duty) then 0
  else if fLt (roundHalfAway (mapProduct per duty)) fZero then 0
  else if fGt (roundHalfAway (mapProduct per duty)) (fOfNat per.toNat) then per
  else BitVec.ofNat 32 (fToNat (roundHalfAway (mapProduct per duty)))

/-- The body of MAP_UPDATE (R171): one count for all channels and one SetDuty event (R173); the dead time is not read (R174). -/
def mapUpdateBody (s : State) : State :=
  { s with
    mapOnTicks := mapTicks s.mapSnap.per s.mppt.duty
    sticky := stickyAfterMap (mapSaturates s.mapSnap.per s.mppt.duty) s.sticky
    history := s.history ++ [.setDuty (mapTicks s.mapSnap.per s.mppt.duty)] }

/-- MAP_UPDATE (R171). -/
def execMapUpdate (s : State) : Host.Outcome State Fault Refusal := runInExec .mapUpdate mapUpdateBody s

end Sys2Proof.Machine
end

