-- ==== Sys2Proof/Machine/Mppt.lean ====
section
/-! DEFINITION. MPPT_INIT and MPPT_UPDATE (41_mppt.md). -/

namespace Sys2Proof.Machine

/-- The body of MPPT_INIT (R150). -/
def mpptInitBody (s : State) : State :=
  { s with
    active := latchMpptAct s.ctrl s.active
    mpptSnap := latchMpptSnap s.cfg
    mppt := { prevV := fZero, prevP := fZero, duty := fZero } }

/-- MPPT_INIT (R150). -/
def execMpptInit (s : State) : Host.Outcome State Fault Refusal := runInExec .mpptInit mpptInitBody s

/-- CLAMP (R152): the test against MAXn first; a NaN candidate passes. -/
def clampDuty (n : MpptSnap) (c : F64) : F64 :=
  if fGt c n.max then n.max else if fLt c n.min then n.min else c

/-- The candidate duty of policy A (R153, R154): the table is evaluated only where dP has a sign, and then the sign of dV decides;
where no row applies the duty is held. -/
def candidateA (n : MpptSnap) (v p : F64) (m : MpptRegs) : F64 :=
  match fSign (fSub p m.prevP) with
  | .neg | .pos =>
    match fSign (fSub v m.prevV) with
    | .neg => fSub m.duty n.delta
    | .pos => fAdd m.duty n.delta
    | .zero | .none => m.duty
  | .zero | .none => m.duty

/-- The candidate duty of policy B (R155). -/
def candidateB (n : MpptSnap) (p : F64) (m : MpptRegs) : F64 :=
  if fGt p m.prevP then fAdd m.duty n.delta else fSub m.duty n.delta

/-- The PV power P = V * I (R151). -/
def pvPower (s : State) : F64 := fMul s.inp.pvV s.inp.pvI

/-- The candidate duty of the update the state asks for: the policy is ACTIVE.MPPT_ACT (R151). -/
def mpptCandidate (s : State) : F64 :=
  if s.mpptActB then candidateB s.mpptSnap (pvPower s) s.mppt
  else candidateA s.mpptSnap s.inp.pvV (pvPower s) s.mppt

/-- The MPPT registers after the update (R153, R155): policy B does not write PREV_V. -/
def mpptNext (s : State) : MpptRegs where
  prevV := if s.mpptActB then s.mppt.prevV else s.inp.pvV
  prevP := pvPower s
  duty := clampDuty s.mpptSnap (mpptCandidate s)

/-- The body of MPPT_UPDATE (R151) with its flags (R152, R156). -/
def mpptUpdateBody (s : State) : State :=
  { s with
    mppt := mpptNext s
    sticky := stickyAfterMppt s.mpptSnap s.mpptActB (mpptCandidate s) (mpptNext s) s.sticky }

/-- MPPT_UPDATE (R151). -/
def execMpptUpdate (s : State) : Host.Outcome State Fault Refusal := runInExec .mpptUpdate mpptUpdateBody s

end Sys2Proof.Machine
end

