-- ==== Sys2Proof/Machine/Pll.lean ====
section
/-! DEFINITION. PLL_INIT and PLL_UPDATE (40_pll.md): the four PLL units as functions of their own registers, each formula in the order and
grouping the rules give (R11). -/

namespace Sys2Proof.Machine

/-- The SOGI coefficients from the PLL snapshot (R111). The constant in qb0 is the literal 0.5, not Kn. -/
def sogiCoefs (n : PllSnap) : CoefRegs :=
  let wn := fMul twoPi n.fn
  let x := fMul (fMul (fMul fTwo n.k) wn) n.ts
  let t := fMul wn n.ts
  let y := fMul t t
  let temp := fDiv fOne (fAdd (fAdd x y) fFour)
  let b0 := fMul x temp
  let qb0 := fMul (fMul fHalf y) temp
  { b0 := b0
    b2 := fNegate b0
    a1 := fMul (fMul fTwo (fSub fFour y)) temp
    a2 := fMul (fSub (fSub x y) fFour) temp
    qb0 := qb0
    qb1 := fMul fTwo qb0
    qb2 := qb0 }

/-- The PLL state that PLL_INIT leaves (R110): all +0 but COS = 1.0. -/
def pllInitial : PllRegs where
  freq := fZero
  angle := fZero
  sin := fZero
  cos := fOne
  qerr := fZero
  qerr1 := fZero
  derr := fZero
  lf0 := fZero
  lf1 := fZero
  integ := fZero
  u0 := fZero
  u1 := fZero
  u2 := fZero
  ip0 := fZero
  ip1 := fZero
  ip2 := fZero
  qd0 := fZero
  qd1 := fZero
  qd2 := fZero

/-- The body of PLL_INIT (R110), under either strategy (R39). -/
def pllInitBody (s : State) : State :=
  { s with
    active := latchPllAct s.ctrl s.active
    pllSnap := latchPllSnap s.cfg
    coef := sogiCoefs (latchPllSnap s.cfg)
    pll := pllInitial
    sticky := stickyAfterPllInit (sogiCoefs (latchPllSnap s.cfg)) s.sticky }

/-- PLL_INIT (R110). -/
def execPllInit (s : State) : Host.Outcome State Fault Refusal := runInExec .pllInit pllInitBody s

/-- OSG_A (R113): ip and qd are formed from the shifted raw history and the unshifted in-phase and quadrature histories. -/
def osgA (c : CoefRegs) (x : F64) (p : PllRegs) : PllRegs :=
  let ip := fAdd (fAdd (fMul c.b0 (fSub x p.u1)) (fMul c.a1 p.ip0)) (fMul c.a2 p.ip1)
  let qd := fAdd (fAdd (fAdd (fAdd (fMul c.qb0 x) (fMul c.qb1 p.u0)) (fMul c.qb2 p.u1)) (fMul c.a1 p.qd0)) (fMul c.a2 p.qd1)
  { p with
    u2 := p.u1, u1 := p.u0, u0 := x
    ip2 := p.ip1, ip1 := p.ip0, ip0 := ip
    qd2 := p.qd1, qd1 := p.qd0, qd0 := qd }

/-- OSG_B (R119): the accumulator takes (s - previousSample) * QSn; the in-phase signal is a copy of the sample. -/
def osgB (n : PllSnap) (x : F64) (p : PllRegs) : PllRegs :=
  let qd := fAdd p.qd0 (fMul (fSub x p.u0) n.qs)
  { p with
    u2 := p.u1, u1 := p.u0, u0 := x
    ip2 := p.ip1, ip1 := p.ip0, ip0 := x
    qd2 := p.qd1, qd1 := p.qd0, qd0 := qd }

/-- ROTATE (R114), with the sine and cosine the previous update left (R242). -/
def rotate (p : PllRegs) : PllRegs :=
  { p with
    qerr1 := p.qerr
    qerr := fAdd (fMul p.cos p.ip0) (fMul p.sin p.qd0)
    derr := fSub (fMul p.cos p.qd0) (fMul p.sin p.ip0) }

/-- LOOPFILTER_A (R115): the pure integrator; INTEG is not written (R36). -/
def loopFilterA (n : PllSnap) (p : PllRegs) : PllRegs :=
  let lf := fAdd (fAdd p.lf0 (fMul n.b0 p.qerr)) (fMul n.b1 p.qerr1)
  { p with lf1 := p.lf0, lf0 := lf, freq := fAdd n.fn lf }

/-- LOOPFILTER_B (R120): the PI, the integrator updated before the correction is formed. -/
def loopFilterB (n : PllSnap) (p : PllRegs) : PllRegs :=
  let integ := fAdd p.integ (fMul (fMul n.ki p.qerr) n.ts)
  let lf := fAdd (fMul n.kp p.qerr) integ
  { p with integ := integ, lf1 := p.lf0, lf0 := lf, freq := fAdd n.fn lf }

/-- The phase increment FREQ * Tsn * TWO_PI (R116). -/
def phaseIncrement (n : PllSnap) (freq : F64) : F64 := fMul (fMul freq n.ts) twoPi

/-- The single conditional subtraction (R116). -/
def wrapAngle (a : F64) : F64 := if fGe a twoPi then fSub a twoPi else a

/-- PHASE (R116), common to both strategies. -/
def phase (n : PllSnap) (p : PllRegs) : PllRegs :=
  let angle := wrapAngle (fAdd p.angle (phaseIncrement n p.freq))
  { p with angle := angle, sin := sinF angle, cos := cosF angle }

/-- The PLL registers after one update with the sample x under strategy A (R112). -/
def pllStepA (n : PllSnap) (c : CoefRegs) (x : F64) (p : PllRegs) : PllRegs :=
  phase n (loopFilterA n (rotate (osgA c x p)))

/-- The PLL registers after one update with the sample x under strategy B (R112). -/
def pllStepB (n : PllSnap) (x : F64) (p : PllRegs) : PllRegs :=
  phase n (loopFilterB n (rotate (osgB n x p)))

/-- The PLL registers after the update that the state asks for: the sample is SAMPLE_IN, the strategy ACTIVE.PLL_ACT (R112). -/
def pllNext (s : State) : PllRegs :=
  if s.pllActB then pllStepB s.pllSnap s.inp.sampleIn s.pll else pllStepA s.pllSnap s.coef s.inp.sampleIn s.pll

/-- The body of PLL_UPDATE (R112) with its checks (R117, R121). -/
def pllUpdateBody (s : State) : State :=
  { s with pll := pllNext s, sticky := stickyAfterPll (pllNext s) s.sticky }

/-- PLL_UPDATE (R112). -/
def execPllUpdate (s : State) : Host.Outcome State Fault Refusal := runInExec .pllUpdate pllUpdateBody s

end Sys2Proof.Machine
end

