-- ==== Sys2Proof/Machine/Sequencer.lean ====
section
/-! DEFINITION. NOP, CYCLE and RUN (43_sequencer.md): the rows of R188 that belong to them. -/

namespace Sys2Proof.Machine

/-- NOP (R181): nothing but acceptance and completion. -/
def execNop (s : State) : Host.Outcome State Fault Refusal := runInExec .nop id s

/-- ACQ_GRID (R182 line 2, R184, R188): a delivery of the grid source at the head of the agenda is taken, its bits as delivered; without
one the core waits, unchanged (R61). -/
def acquireGrid (s : State) : State :=
  match s.agenda with
  | .grid g :: rest =>
    { s with inp := { s.inp with sampleIn := g }, seq := .acqPv, history := s.history ++ [.grid g], agenda := rest }
  | _ => s

/-- ACQ_PV (R182 line 3, R184, R188): a delivery of the PV source at the head of the agenda is taken; without one the core waits. -/
def acquirePv (s : State) : State :=
  match s.agenda with
  | .pv v i :: rest =>
    { s with inp := { s.inp with pvV := v, pvI := i }, seq := .compute, history := s.history ++ [.pv v i], agenda := rest }
  | _ => s

/-- COMPUTE_BODY (R183): PLL, then MPPT, then the mapper on the duty just written. -/
def computeBody (s : State) : State := mapUpdateBody (mpptUpdateBody (pllUpdateBody s))

/-- The end of the COMPUTE step (R188): MODE ONCE completes the command, MODE LOOP waits for a tick with BUSY still 1 (R185). -/
def endCompute (s : State) : State :=
  match s.mode with
  | .once => complete s
  | .loop => { s with seq := .waitTick }

/-- WAIT_TICK (R185 line 5, R188): with TICK_PENDING the next iteration begins; without it the core waits, unchanged. -/
def leaveWaitTick (s : State) : State :=
  if s.tickPending then { s with tickPending := false, seq := .acqGrid } else s

/-- CYCLE (R182): accept, acquire the grid sample, acquire the PV pair, compute and complete, one transition each. R188 has no row for it
in EXEC or WAIT_TICK (assumption log 9). -/
def execCycle (s : State) : Host.Outcome State Fault Refusal :=
  match s.seq with
  | .idle => .next (accept .cycle s)
  | .acqGrid => .next (acquireGrid s)
  | .acqPv => .next (acquirePv s)
  | .compute => .next (endCompute (computeBody s))
  | .exec | .waitTick => .fault .noTransition

/-- RUN (R185): as CYCLE, and after each compute the wait for a cadence tick, for ever. R188 has no row for it in EXEC
(assumption log 9). -/
def execRun (s : State) : Host.Outcome State Fault Refusal :=
  match s.seq with
  | .idle => .next (accept .run s)
  | .acqGrid => .next (acquireGrid s)
  | .acqPv => .next (acquirePv s)
  | .compute => .next (endCompute (computeBody s))
  | .waitTick => .next (leaveWaitTick s)
  | .exec => .fault .noTransition

end Sys2Proof.Machine
end

