-- ==== Sys2Proof/Machine/Dispatch.lean ====
section
/-! DEFINITION. One arm for each command: the transition that R188 gives the command in the state's SEQ. -/

namespace Sys2Proof.Machine

def exec (i : Instr) (s : State) : Host.Outcome State Fault Refusal :=
  match i with
  | .nop => Sys2Proof.Machine.execNop s
  | .pllInit => Sys2Proof.Machine.execPllInit s
  | .mpptInit => Sys2Proof.Machine.execMpptInit s
  | .mapInit => Sys2Proof.Machine.execMapInit s
  | .pllUpdate => Sys2Proof.Machine.execPllUpdate s
  | .mpptUpdate => Sys2Proof.Machine.execMpptUpdate s
  | .mapUpdate => Sys2Proof.Machine.execMapUpdate s
  | .cycle => Sys2Proof.Machine.execCycle s
  | .run => Sys2Proof.Machine.execRun s

end Sys2Proof.Machine
end

