-- ==== Sys2Proof/Machine/Step.lean ====
section
/-! DEFINITION. One step: the transition at the head of the agenda (R79), or, where the agenda is empty, the core's own. -/

namespace Sys2Proof.Machine

/-- The core has an enabled step of its own (R188): EXEC, COMPUTE, and WAIT_TICK with TICK_PENDING. -/
def coreEnabled (s : State) : Bool :=
  match s.seq with
  | .exec | .compute => true
  | .waitTick => s.tickPending
  | .idle | .acqGrid | .acqPv => false

/-- The transition of the pending command in the state's SEQ (R188). -/
def runPending (s : State) : Host.Outcome State Fault Refusal :=
  match s.pending with
  | some i => exec i s
  | none => .fault .noTransition

/-- The core's own step where it is enabled; otherwise the core waits and nothing changes (R188: "In IDLE the core has no step of its own"). -/
def coreStep (s : State) : Host.Outcome State Fault Refusal :=
  if coreEnabled s then runPending s else .next s

/-- A host write (R72): an issued command makes its first transition, acceptance, in this same step (R180). -/
def hostWrite (addr : Offset) (size : Nat) (v : Word) (s : State) : Host.Outcome State Fault Refusal :=
  match writeAction addr size v s with
  | .issue i => exec i (busWrite (.issue i) addr size v s)
  | .refuse c => .next (busWrite (.refuse c) addr size v s)
  | .clear => .next (busWrite .clear addr size v s)
  | .store r => .next (busWrite (.store r) addr size v s)

/-- One transition of the one total order (R79, R188). A delivery completes the core's acquisition step while its request is active;
without the request it is no transition and is dropped (R184; assumption log 3). -/
def step (s : State) : Host.Outcome State Fault Refusal :=
  match s.agenda with
  | [] => coreStep s
  | .core :: _ => coreStep s.pop
  | .read addr size :: _ => .next (busRead addr size s.pop)
  | .write addr size v :: _ => hostWrite addr size v s.pop
  | .poll addr mask value :: _ => .next (pollRead addr mask value s.pop)
  | .grid _ :: _ => if s.gridReq then runPending s else .next s.pop
  | .pv _ _ :: _ => if s.pvReq then runPending s else .next s.pop
  | .tick :: _ => .next (takeTick s.pop)
  | .reset :: _ => .next (resetMachine s.pop)

/-- s with the command word whose table bits are w as the host's next write to CMD: the place from which the machine takes its next
command (R90; assumption log 2). The word's bits above nbits are zero. -/
def State.withFetchWord (s : State) (nbits w : Nat) : State :=
  s.push (.write Reg.cmd.offset 8 (BitVec.ofNat 64 (w % 2 ^ nbits)))

end Sys2Proof.Machine
end

