-- ==== Sys2Proof/Machine/Script.lean ====
section
/-! DEFINITION. The host script forms of R97 as moves of the agenda, the pseudo-instructions of R98 and the bus encoding of R99. -/

namespace Sys2Proof.Machine

/-- wr NAME, X (R97). -/
def scriptWr (r : Reg) (x : Word) : Move := .write r.offset 8 x

/-- rd NAME (R97). -/
def scriptRd (r : Reg) : Move := .read r.offset 8

/-- cmd OP (R97): a write of zext_64(opcode(OP)) to CMD. -/
def scriptCmd (i : Instr) : Move := .write Reg.cmd.offset 8 (encode i)

/-- poll NAME.FIELD == X (R97), the field given by its mask and the value in its place. -/
def scriptPoll (r : Reg) (mask value : Word) : Move := .poll r.offset mask value

/-- A register whose type in R21 is not f64: one of the u32 registers N_CHANNELS, PERIOD_TICKS, DEAD_TIME and MAP_ON_TICKS, or one of the
'fields' registers CTRL, CMD, STATUS, ERR_CAUSE and ACTIVE. -/
def Reg.takesInteger (r : Reg) : Bool :=
  [.ctrl, .cmd, .status, .errCause, .active, .nChannels, .periodTicks, .deadTime, .mapOnTicks].contains r

/-- The decimal literal ±n / d as an integer: R97 says only "the integer". That the sign is dropped and n / d is truncated, where the literal
is negative or no integer, is the model's (DESIGN CHOICE, assumption log 13). -/
def integerLiteral (n d : Nat) : Word := BitVec.ofNat 64 (n / d)

/-- A decimal literal ±n / d written to a register (R97): the binary64 nearest to it in an f64 register, the integer in a u32 register. R97
gives it no meaning in a 'fields' register: that it is the integer there too is the model's (DESIGN CHOICE, assumption log 13). -/
def scriptLiteral (r : Reg) (neg : Bool) (n d : Nat) : Word :=
  if r.takesInteger then integerLiteral n d else fOfRatio neg n d

/-- A decimal literal written at an offset (R97): that of the register there, and at an unmapped offset the integer, as line 19 of program P3
writes it (DEDUCED, assumption log 13). -/
def scriptLiteralAt (a : Offset) (neg : Bool) (n d : Nat) : Word :=
  match Reg.ofOffset a with
  | some r => scriptLiteral r neg n d
  | none => integerLiteral n d

/-- wait (R98): poll STATUS.BUSY == 0. -/
def scriptWait : List Move := [scriptPoll .status 1 0]

/-- do OP (R98). -/
def scriptDo (i : Instr) : List Move := scriptCmd i :: scriptWait

/-- pll_step X (R98). -/
def scriptPllStep (x : F64) : List Move := scriptWr .sampleIn x :: scriptDo .pllUpdate

/-- mppt_step V, I (R98). -/
def scriptMpptStep (v i : F64) : List Move := scriptWr .pvVIn v :: scriptWr .pvIIn i :: scriptDo .mpptUpdate

/-- map_step (R98). -/
def scriptMapStep : List Move := scriptDo .mapUpdate

/-- init_all (R98). -/
def scriptInitAll : List Move := scriptDo .pllInit ++ scriptDo .mpptInit ++ scriptDo .mapInit

/-- clear_status (R98): 1 to every sticky bit. -/
def scriptClearStatus : Move := scriptWr .status 0x00000000001F0300#64

/-- The bus triple of R99: whether the transaction is a write (W) or a read (R), the offset, and the 64-bit data. -/
abbrev BusTriple := Bool × Offset × Word

/-- The triple of a bus transaction that has been made (R99): a write with the data written, a read, a poll's among them, with the value
read. The environment's events are no bus transactions. -/
def Event.busTriple : Event → Option BusTriple
  | .read a _ d _ => some (false, a, d)
  | .write a _ v _ => some (true, a, v)
  | .grid _ | .pv _ _ | .setDuty _ | .actConfig _ _ | .tick | .reset => none

/-- The encoding of what a script has done so far (R99): the triples of the bus transactions of a history, in their order. -/
def busTriples (h : List Event) : List BusTriple := h.filterMap Event.busTriple

/-- The triple that a move makes as the next transition of the state s (R99): a read, or one read of a poll, with the value that it reads
there. -/
def busTriple (m : Move) (s : State) : Option BusTriple :=
  match m with
  | .read a n => some (false, a, (readResult a n s).1)
  | .poll a _ _ => some (false, a, (readResult a 8 s).1)
  | .write a _ v => some (true, a, v)
  | .grid _ | .pv _ _ | .tick | .reset | .core => none

end Sys2Proof.Machine
end

