-- ==== Sys2Proof/Safety.lean ====
section
/-! DEFINITION. The terms in which claims are stated: the invariant of the machine, the value of a binary64, the accuracy of the
trigonometric units, and the end of a script's run. -/

namespace Sys2Proof.Machine

/-- Which PENDING and MODE each SEQ goes with (R46, R180, R188): none in IDLE, a command without acquisition in EXEC, CYCLE with MODE ONCE
or RUN with MODE LOOP in the acquisition and compute states, RUN in WAIT_TICK. -/
def pendingFits : Seq → Mode → Option Instr → Bool
  | .idle, .once, none => true
  | .exec, .once, some i => i != .cycle && i != .run
  | .acqGrid, .once, some i | .acqPv, .once, some i | .compute, .once, some i => i == .cycle
  | .acqGrid, .loop, some i | .acqPv, .loop, some i | .compute, .loop, some i | .waitTick, .loop, some i => i == .run
  | _, _, _ => false

/-- The invariant of the machine. Every field is stored on its own (R24, R46, R47, R26); these relations hold between them. -/
structure MachineInv (s : State) : Prop where
  /-- STATUS.BUSY = 1 exactly when SEQ is not IDLE (R203). -/
  busy_iff : s.busy = true ↔ s.seq ≠ .idle
  /-- PENDING and MODE fit SEQ (R46, R188). -/
  pending_fits : pendingFits s.seq s.mode s.pending = true
  /-- RUNNING exactly with MODE LOOP (R46, R185). -/
  running_iff : s.running = true ↔ s.mode = .loop
  /-- A tick is latched only while RUNNING (R47). -/
  tick_running : s.tickPending = true → s.running = true
  /-- ERR_CAUSE holds a record exactly when ERR is 1 (R26). -/
  err_iff : s.sticky.err = true ↔ s.errCause.isSome = true
  /-- ERR_MULTI only with ERR (R25, R201). -/
  multi_err : s.sticky.errMulti = true → s.sticky.err = true

/-- The exact value of a finite binary64. -/
def fValue (x : F64) : ℚ := (signedUnits x : ℚ) / 2 ^ 1074

/-- e bounds the error of SIN_F and COS_F on the finite angles (R118 c): what R8 calls TRIG_ERR. -/
def TrigErrBound (e : ℝ) : Prop :=
  ∀ x : F64, isFinite x = true →
    |((fValue (sinF x) : ℚ) : ℝ) - Real.sin ((fValue x : ℚ) : ℝ)| ≤ e ∧
    |((fValue (cosF x) : ℚ) : ℝ) - Real.cos ((fValue x : ℚ) : ℝ)| ≤ e

/-- The register map with its reset column (R21), N_CHANNELS apart: offset and 64-bit content as a read returns it right after reset. -/
def resetTable : List (Offset × Word) :=
  [(0x000#10, 0x0000000000000000#64), (0x008#10, 0x0000000000000000#64), (0x010#10, 0x0000000000000000#64),
      (0x018#10, 0x0000000000000000#64), (0x020#10, 0x0000000000000000#64), (0x040#10, 0x4049000000000000#64),
      (0x048#10, 0x3EF4F8B588E368F1#64), (0x050#10, 0x3FE0000000000000#64), (0x058#10, 0x0000000000000000#64)]
    ++ [(0x060#10, 0x0000000000000000#64), (0x068#10, 0x0000000000000000#64), (0x070#10, 0x0000000000000000#64),
      (0x078#10, 0x0000000000000000#64), (0x080#10, 0x3F747AE147AE147B#64), (0x088#10, 0x3FA999999999999A#64),
      (0x090#10, 0x3FEE666666666666#64), (0x098#10, 0x0000000000000000#64), (0x0A0#10, 0x0000000000000000#64)]
    ++ [(0x0C0#10, 0x0000000000000000#64), (0x0C8#10, 0x0000000000000000#64), (0x0D0#10, 0x0000000000000000#64),
      (0x100#10, 0x0000000000000000#64), (0x108#10, 0x0000000000000000#64), (0x110#10, 0x0000000000000000#64),
      (0x118#10, 0x3FF0000000000000#64), (0x120#10, 0x0000000000000000#64), (0x128#10, 0x0000000000000000#64)]
    ++ [(0x130#10, 0x0000000000000000#64), (0x138#10, 0x0000000000000000#64), (0x140#10, 0x0000000000000000#64),
      (0x148#10, 0x0000000000000000#64), (0x150#10, 0x0000000000000000#64), (0x158#10, 0x0000000000000000#64),
      (0x160#10, 0x0000000000000000#64), (0x168#10, 0x0000000000000000#64), (0x170#10, 0x0000000000000000#64)]
    ++ [(0x178#10, 0x0000000000000000#64), (0x180#10, 0x0000000000000000#64), (0x188#10, 0x0000000000000000#64),
      (0x190#10, 0x0000000000000000#64), (0x1A0#10, 0x3F59B1FFEC1E8D38#64), (0x1A8#10, 0xBF59B1FFEC1E8D38#64),
      (0x1B0#10, 0x3FFFF2FDAB5B37EC#64), (0x1B8#10, 0xBFEFE64E0013E173#64), (0x1C0#10, 0x3ED4AA575C672B2A#64)]
    ++ [(0x1C8#10, 0x3EE4AA575C672B2A#64), (0x1D0#10, 0x3ED4AA575C672B2A#64), (0x200#10, 0x0000000000000000#64),
      (0x208#10, 0x0000000000000000#64), (0x210#10, 0x0000000000000000#64), (0x240#10, 0x0000000000000000#64)]

/-- The register map of R21 with the field of the state that each register shows: offset and 64-bit content as a read returns it. -/
def registerTable (s : State) : List (Offset × Word) :=
  [(0x000#10, s.ctrl.setWidth 64), (0x008#10, 0#64), (0x010#10, statusWord s),
      (0x018#10, errCauseWord s.errCause), (0x020#10, s.active.setWidth 64), (0x028#10, nChannels.setWidth 64),
      (0x040#10, s.cfg.fNom), (0x048#10, s.cfg.ts), (0x050#10, s.cfg.k)]
    ++ [(0x058#10, s.cfg.lfB0), (0x060#10, s.cfg.lfB1), (0x068#10, s.cfg.kp),
      (0x070#10, s.cfg.ki), (0x078#10, s.cfg.qscale), (0x080#10, s.cfg.mpptDelta),
      (0x088#10, s.cfg.dutyMin), (0x090#10, s.cfg.dutyMax), (0x098#10, s.cfg.periodTicks.setWidth 64)]
    ++ [(0x0A0#10, s.cfg.deadTime.setWidth 64), (0x0C0#10, s.inp.sampleIn), (0x0C8#10, s.inp.pvV),
      (0x0D0#10, s.inp.pvI), (0x100#10, s.pll.freq), (0x108#10, s.pll.angle),
      (0x110#10, s.pll.sin), (0x118#10, s.pll.cos), (0x120#10, s.pll.qerr)]
    ++ [(0x128#10, s.pll.qerr1), (0x130#10, s.pll.derr), (0x138#10, s.pll.lf0),
      (0x140#10, s.pll.lf1), (0x148#10, s.pll.integ), (0x150#10, s.pll.u0),
      (0x158#10, s.pll.u1), (0x160#10, s.pll.u2), (0x168#10, s.pll.ip0)]
    ++ [(0x170#10, s.pll.ip1), (0x178#10, s.pll.ip2), (0x180#10, s.pll.qd0),
      (0x188#10, s.pll.qd1), (0x190#10, s.pll.qd2), (0x1A0#10, s.coef.b0),
      (0x1A8#10, s.coef.b2), (0x1B0#10, s.coef.a1), (0x1B8#10, s.coef.a2)]
    ++ [(0x1C0#10, s.coef.qb0), (0x1C8#10, s.coef.qb1), (0x1D0#10, s.coef.qb2),
      (0x200#10, s.mppt.prevV), (0x208#10, s.mppt.prevP), (0x210#10, s.mppt.duty),
      (0x240#10, s.mapOnTicks.setWidth 64)]

/-- A transaction of the host. -/
def Move.isHost : Move → Bool
  | .read _ _ | .write _ _ _ | .poll _ _ _ => true
  | .grid _ | .pv _ _ | .tick | .reset | .core => false

/-- A run of a script has ended (R190): the host has made its last transaction and BUSY is 0. -/
def runEnded (s : State) : Bool := !s.agenda.any Move.isHost && !s.busy

/-- The next transition is the core's own: its turn, or no other agent's. -/
def coreNext (s : State) : Bool :=
  match s.agenda with
  | [] | .core :: _ => true
  | _ => false

/-- Sticky bits with others set on top of them. -/
def stickyOr (k d : Sticky) : Sticky where
  err := k.err || d.err
  errMulti := k.errMulti || d.errMulti
  dutySatHi := k.dutySatHi || d.dutySatHi
  dutySatLo := k.dutySatLo || d.dutySatLo
  angleRange := k.angleRange || d.angleRange
  nonfinite := k.nonfinite || d.nonfinite
  mapSat := k.mapSat || d.mapSat

/-- The next transition is a write to STATUS (R72: 8 bytes at its offset). -/
def statusWriteNext (s : State) : Bool :=
  match s.agenda with
  | .write a n _ :: _ => a == Reg.status.offset && n == 8
  | _ => false

/-- The next transition is the external reset. -/
def resetNext (s : State) : Bool :=
  match s.agenda with
  | .reset :: _ => true
  | _ => false

end Sys2Proof.Machine
end

