-- ==== Sys2Proof/Certificates/Slice0/Obligations.lean ====
section
/-! DEFINITION. The statements for the provers. A statement of what a command does names the whole next state as the state before with
the fields the command writes, so that its frame (every other register, flag, hidden element, the history and the agenda) is part of it. -/

open Sys2Proof Sys2Proof.Machine

/-! Whole-machine rules. -/

/-- Every step keeps the invariant, from every state that meets it, not only from those a run reaches. -/
def Obligations.StepKeepsInvariant : Prop :=
  ∀ s t : State, MachineInv s → step s = .next t → MachineInv t

/-- The state right after reset meets the invariant. -/
def Obligations.InvariantHoldsAtReset : Prop :=
  MachineInv State.reset

/-- From a state that meets the invariant a step always answers a next state: nothing stops the machine (R204, R205, R207). -/
def Obligations.StepNeverStops : Prop :=
  ∀ s : State, MachineInv s → ∃ t, step s = .next t

/-- R185, R246: while RUNNING, every step but the reset leaves the machine in RUN: BUSY, MODE LOOP, RUN pending, SEQ one of the loop's. -/
def Obligations.RunIsLeftOnlyByReset : Prop :=
  ∀ s t : State, MachineInv s → s.running = true → resetNext s = false → step s = .next t →
    t.running = true ∧ t.busy = true ∧ t.mode = .loop ∧ t.pending = some .run ∧ t.seq ≠ .idle ∧ t.seq ≠ .exec

/-- R62, R231: no step takes an event out of the history, the reset included, and a step adds at most one. -/
def Obligations.HistoryOnlyGrows : Prop :=
  ∀ s t : State, MachineInv s → step s = .next t → ∃ es : List Event, t.history = s.history ++ es ∧ es.length ≤ 1

/-- R25, R248: a sticky bit that is set survives every step but the reset and a write to STATUS; a STATUS write clears only the bits
written 1, and ERR_MULTI also with bit 8. What the history's entry of that write holds is the model's (R62, assumption log 12, DEDUCED). -/
def Obligations.StickyBitsSurvive : Prop :=
  ∀ s t : State, resetNext s = false → step s = .next t →
    (statusWriteNext s = false →
      (s.sticky.err = true → t.sticky.err = true) ∧ (s.sticky.errMulti = true → t.sticky.errMulti = true) ∧
      (s.sticky.dutySatHi = true → t.sticky.dutySatHi = true) ∧ (s.sticky.dutySatLo = true → t.sticky.dutySatLo = true) ∧
      (s.sticky.angleRange = true → t.sticky.angleRange = true) ∧ (s.sticky.nonfinite = true → t.sticky.nonfinite = true) ∧
      (s.sticky.mapSat = true → t.sticky.mapSat = true)) ∧
    (∀ v rest, s.agenda = .write 0x010#10 8 v :: rest →
      t.sticky =
        { err := s.sticky.err && !v.getLsbD 8
          errMulti := s.sticky.errMulti && !(v.getLsbD 9 || v.getLsbD 8)
          dutySatHi := s.sticky.dutySatHi && !v.getLsbD 16
          dutySatLo := s.sticky.dutySatLo && !v.getLsbD 17
          angleRange := s.sticky.angleRange && !v.getLsbD 18
          nonfinite := s.sticky.nonfinite && !v.getLsbD 19
          mapSat := s.sticky.mapSat && !v.getLsbD 20 } ∧
      t.errCause = (if v.getLsbD 8 then none else s.errCause) ∧
      t = { s with sticky := t.sticky, errCause := t.errCause, agenda := rest, history := s.history ++ [.write 0x010#10 8 v none] })

/-- R39, R45, R241: the coefficients and the PLL snapshot change only in the core's own step that executes PLL_INIT or at reset, the MPPT
snapshot only in the one that executes MPPT_INIT or at reset, the mapper snapshot only in the one that executes MAP_INIT or at reset. -/
def Obligations.SnapshotsChangeOnlyAtInit : Prop :=
  ∀ s t : State, MachineInv s → resetNext s = false → step s = .next t →
    ((coreNext s = true ∧ s.seq = .exec ∧ s.pending = some .pllInit) ∨
      (t.coef = s.coef ∧ t.pllSnap = s.pllSnap ∧ t.active.getLsbD 0 = s.active.getLsbD 0)) ∧
    ((coreNext s = true ∧ s.seq = .exec ∧ s.pending = some .mpptInit) ∨
      (t.mpptSnap = s.mpptSnap ∧ t.active.getLsbD 1 = s.active.getLsbD 1)) ∧
    ((coreNext s = true ∧ s.seq = .exec ∧ s.pending = some .mapInit) ∨ t.mapSnap = s.mapSnap)

/-- R33, R34: the PLL state changes only in the core's own step, where PLL_INIT or PLL_UPDATE executes or in a compute step, or at reset. -/
def Obligations.PllStateWrittenOnlyByPllSteps : Prop :=
  ∀ s t : State, MachineInv s → resetNext s = false → step s = .next t → t.pll ≠ s.pll →
    coreNext s = true ∧
    ((s.seq = .exec ∧ (s.pending = some .pllInit ∨ s.pending = some .pllUpdate)) ∨
    (s.seq = .compute ∧ (s.pending = some .cycle ∨ s.pending = some .run)))

/-- R203, R240: while BUSY no bus write changes a configuration, input, control, duty or any other register but STATUS and ERR_CAUSE,
the snapshots or the sequencer. -/
def Obligations.BusyWritesChangeNoRegister : Prop :=
  ∀ (s t : State) (a : Offset) (n : Nat) (v : Word) (rest : List Move),
    s.busy = true → s.agenda = .write a n v :: rest → step s = .next t →
    t = { s with sticky := t.sticky, errCause := t.errCause, history := t.history, agenda := rest }

/-- R25, R49: no transition of a command reads a sticky bit, the error record or the history: with any other values of them it sets the same
sticky bits, appends the same events, keeps the error record and does the same to everything else. -/
def Obligations.FlagsAreNeverRead : Prop :=
  ∀ (i : Instr) (s t : State), exec i s = .next t →
    ∃ (d : Sticky) (es : List Event), t.sticky = stickyOr s.sticky d ∧ t.errCause = s.errCause ∧ t.history = s.history ++ es ∧
      ∀ (k : Sticky) (e : Option ErrRecord) (h : List Event),
        exec i { s with sticky := k, errCause := e, history := h } =
          .next { t with sticky := stickyOr k d, errCause := e, history := h ++ es }

/-- R29, R83, R241: the updates read the snapshots and ACTIVE, never CTRL or the configuration registers. -/
def Obligations.UpdatesReadNoConfiguration : Prop :=
  ∀ (i : Instr) (s t : State) (c : ConfigRegs) (k : BitVec 2), i ∈ [Instr.pllUpdate, .mpptUpdate, .mapUpdate, .cycle, .run] →
    exec i s = .next t → exec i { s with cfg := c, ctrl := k } = .next { t with cfg := c, ctrl := k }

/-- R183: neither of the PLL and MPPT updates reads what the other writes, so their order changes no value. -/
def Obligations.PllAndMpptUpdatesCommute : Prop :=
  ∀ s : State, s.seq = .exec → ∃ a b t,
    exec .pllUpdate s = .next a ∧ exec .mpptUpdate s = .next b ∧
    exec .mpptUpdate { a with seq := .exec } = .next t ∧ exec .pllUpdate { b with seq := .exec } = .next t

/-! The command word and the step. -/

/-- R91, R93, R96: a word has a meaning exactly where it is the encoding of that command, and a command's eight bytes in bus order decode to
it and leave the rest. -/
def Obligations.CommandWordHasOneMeaning : Prop :=
  (∀ (w : Word) (i : Instr), decodeWord w = .ok i ↔ w = encode i) ∧
  (∀ (i : Instr) (rest : List Byte), i.wf = true → decode (encodeBytes i ++ rest) = .ok (i, rest))

/-- R92, R94 in the decoder: a word with RSV not zero is reserved whatever its opcode, a word with RSV zero and OPCODE above 8 is illegal, and
every other word decodes. -/
def Obligations.BadWordsRejectedByName : Prop :=
  ∀ w : Word,
    (256 ≤ w.toNat → decodeWord w = .error .reserved) ∧
    (8 < w.toNat → w.toNat < 256 → decodeWord w = .error .illegal) ∧
    (w.toNat ≤ 8 → ∃ i, decodeWord w = .ok i ∧ (opcodeOf i).toNat = w.toNat)

/-- R93: the nine words written out from the opcode map (a check of the encoding, not a headline). -/
def Obligations.SpecWordsDecode : Prop :=
  decodeWord 0x0000000000000000#64 = .ok .nop ∧ decodeWord 0x0000000000000001#64 = .ok .pllInit ∧
  decodeWord 0x0000000000000002#64 = .ok .mpptInit ∧ decodeWord 0x0000000000000003#64 = .ok .mapInit ∧
  decodeWord 0x0000000000000004#64 = .ok .pllUpdate ∧ decodeWord 0x0000000000000005#64 = .ok .mpptUpdate ∧
  decodeWord 0x0000000000000006#64 = .ok .mapUpdate ∧ decodeWord 0x0000000000000007#64 = .ok .cycle ∧
  decodeWord 0x0000000000000008#64 = .ok .run

/-- A step runs the decoded command: a host write of a legal word to CMD while not BUSY is exec of that command on the state with the
write taken and recorded; the core's turn is exec of the pending command where the core has a step, and a wait where it has none; a
delivery that is asked for is exec of the pending command. That the core moves or waits where the agenda is empty is the model's schedule
(assumption log 2, DESIGN CHOICE), that a delivery that is not asked for is dropped, only the agenda moving on, is the model's too (R184 has
no such delivery; assumption log 3, DESIGN CHOICE), and so is what the history's entry of the write holds (R62, assumption log 12, DEDUCED). -/
def Obligations.StepRunsTheCommand : Prop :=
  ∀ (s : State) (i : Instr) (rest : List Move),
    (∀ w, s.agenda = .write 0x008#10 8 w :: rest → s.busy = false → decodeWord w = .ok i → i.wf = true →
      step s = exec i { s with agenda := rest, history := s.history ++ [.write 0x008#10 8 w none] }) ∧
    (s.agenda = [] → s.pending = some i → s.seq = .exec ∨ s.seq = .compute ∨ (s.seq = .waitTick ∧ s.tickPending = true) →
      step s = exec i s) ∧
    (s.agenda = .core :: rest → s.pending = some i → s.seq = .exec ∨ s.seq = .compute ∨ (s.seq = .waitTick ∧ s.tickPending = true) →
      step s = exec i { s with agenda := rest }) ∧
    (s.agenda = [] → s.seq = .idle ∨ s.seq = .acqGrid ∨ s.seq = .acqPv ∨ (s.seq = .waitTick ∧ s.tickPending = false) →
      step s = .next s) ∧
    (s.agenda = .core :: rest → s.seq = .idle ∨ s.seq = .acqGrid ∨ s.seq = .acqPv ∨ (s.seq = .waitTick ∧ s.tickPending = false) →
      step s = .next { s with agenda := rest }) ∧
    (∀ g, s.agenda = .grid g :: rest → s.seq = .acqGrid → s.pending = some i → step s = exec i s) ∧
    (∀ v c, s.agenda = .pv v c :: rest → s.seq = .acqPv → s.pending = some i → step s = exec i s) ∧
    (∀ g, s.agenda = .grid g :: rest → s.seq ≠ .acqGrid → step s = .next { s with agenda := rest }) ∧
    (∀ v c, s.agenda = .pv v c :: rest → s.seq ≠ .acqPv → step s = .next { s with agenda := rest })

/-- The word of a table row, placed where the machine takes its next command, is run by the very next step. That this place is the host's next
CMD write is the model's (assumption log 2, DESIGN CHOICE), and so is what the history's entry of that write holds (R62, assumption log 12,
DEDUCED). -/
def Obligations.FetchWordIsTheNextCommand : Prop :=
  ∀ (s : State) (w : Nat) (i : Instr), s.busy = false → decodeTableWord 64 w = some i →
    step (s.withFetchWord 64 w) = exec i { s with history := s.history ++ [.write 0x008#10 8 (BitVec.ofNat 64 w) none] }

/-- R180: acceptance of each command in IDLE. -/
def Obligations.AcceptanceOfEachCommand : Prop :=
  ∀ s : State, s.seq = .idle →
    (∀ i ∈ [Instr.nop, .pllInit, .mpptInit, .mapInit, .pllUpdate, .mpptUpdate, .mapUpdate],
      exec i s = .next { s with pending := some i, busy := true, seq := .exec }) ∧
    exec .cycle s = .next { s with pending := some .cycle, busy := true, mode := .once, seq := .acqGrid } ∧
    exec .run s = .next { s with pending := some .run, busy := true, mode := .loop, running := true, seq := .acqGrid }

/-! The host bus. -/

/-- R201: the first error is recorded with its cause, offset and direction, a later one sets only ERR_MULTI, and nothing else changes. A
STATUS write with bit 8 clears ERR, ERR_MULTI and ERR_CAUSE together; one with bit 9 and without bit 8 clears of the three only ERR_MULTI;
of the other sticky bits either clears those it writes 1 (R25), and nothing else changes. -/
def Obligations.FirstErrorIsKept : Prop :=
  ∀ (c : Cause) (a : Offset) (w : Bool) (s : State),
    (s.sticky.err = false →
      raiseErr c a w s = { s with sticky := { s.sticky with err := true }, errCause := some { cause := c, offset := a, wr := w } }) ∧
    (s.sticky.err = true → raiseErr c a w s = { s with sticky := { s.sticky with errMulti := true } }) ∧
    (∀ v : Word, v.getLsbD 8 = true →
      clearStatus v s = { s with
        sticky := { (clearStatus v s).sticky with err := false, errMulti := false }
        errCause := none }) ∧
    (∀ v : Word, v.getLsbD 9 = true → v.getLsbD 8 = false →
      clearStatus v s = { s with sticky := { (clearStatus v s).sticky with err := s.sticky.err, errMulti := false } }) ∧
    (∀ v : Word,
      (clearStatus v s).sticky.dutySatHi = (s.sticky.dutySatHi && !v.getLsbD 16) ∧
      (clearStatus v s).sticky.dutySatLo = (s.sticky.dutySatLo && !v.getLsbD 17) ∧
      (clearStatus v s).sticky.angleRange = (s.sticky.angleRange && !v.getLsbD 18) ∧
      (clearStatus v s).sticky.nonfinite = (s.sticky.nonfinite && !v.getLsbD 19) ∧
      (clearStatus v s).sticky.mapSat = (s.sticky.mapSat && !v.getLsbD 20))

/-- R71: a read of a register returns its content and records no error; a misaligned or narrow one returns 0 with BUS_ALIGN, an unmapped
aligned one 0 with BUS_UNMAPPED; nothing but the error record and the history changes, so that the next read of any register returns what it
would have returned; CMD reads 0. What the history's entry of the read holds is the model's (R62, assumption log 12, DEDUCED). -/
def Obligations.BusReadReturns : Prop :=
  ∀ (s : State) (a : Offset) (n : Nat) (rest : List Move), s.agenda = .read a n :: rest →
    (n ≠ 8 ∨ a.toNat % 8 ≠ 0 →
      step s = .next { raiseErr .busAlign a false s with agenda := rest, history := s.history ++ [.read a n 0 (some .busAlign)] }) ∧
    (n = 8 → a.toNat % 8 = 0 → (∀ r : Reg, r.offset ≠ a) →
      step s = .next { raiseErr .busUnmapped a false s with agenda := rest, history := s.history ++ [.read a n 0 (some .busUnmapped)] }) ∧
    (∀ r : Reg, r.offset = a → n = 8 →
      step s = .next { s with agenda := rest, history := s.history ++ [.read a n (readReg r s) none] } ∧
      (∀ q, readReg q { s with agenda := rest, history := s.history ++ [.read a n (readReg r s) none] } = readReg q s) ∧
      (r = .cmd → readReg r s = 0))

/-- R41, R72, R92, R94, R202, R203: the checks of a bus write in their order and the effect of each: alignment, mapping, read-only, STATUS,
BUSY, then for CMD the reserved field, the opcode and the command's acceptance, for MPPT_DUTY the range, and otherwise the store. What the
history's entry of the write holds is the model's (R62, assumption log 12, DEDUCED). -/
def Obligations.BusWriteChecksInOrder : Prop :=
  ∀ (s : State) (a : Offset) (n : Nat) (v : Word) (rest : List Move), s.agenda = .write a n v :: rest →
    (n ≠ 8 ∨ a.toNat % 8 ≠ 0 →
      step s = .next { raiseErr .busAlign a true s with agenda := rest, history := s.history ++ [.write a n v (some .busAlign)] }) ∧
    (n = 8 → a.toNat % 8 = 0 → (∀ r : Reg, r.offset ≠ a) →
      step s = .next { raiseErr .busUnmapped a true s with agenda := rest, history := s.history ++ [.write a n v (some .busUnmapped)] }) ∧
    (∀ r : Reg, r.offset = a → n = 8 →
      (r.access = .ro ↔ a = 0x018#10 ∨ a = 0x020#10 ∨ a = 0x028#10 ∨ (0x100 ≤ a.toNat ∧ a.toNat ≤ 0x1D0) ∨ a = 0x200#10 ∨ a = 0x208#10 ∨
        a = 0x240#10) ∧
      (r.access = .ro →
        step s = .next { raiseErr .writeRo a true s with agenda := rest, history := s.history ++ [.write a n v (some .writeRo)] }) ∧
      (r = .status → step s = .next { clearStatus v s with agenda := rest, history := s.history ++ [.write a n v none] }) ∧
      (r.access ≠ .ro → r ≠ .status → s.busy = true →
        step s = .next { raiseErr .busy a true s with agenda := rest, history := s.history ++ [.write a n v (some .busy)] }) ∧
      (r = .cmd → s.busy = false → 256 ≤ v.toNat →
        step s = .next { raiseErr .cmdReserved a true s with agenda := rest, history := s.history ++ [.write a n v (some .cmdReserved)] }) ∧
      (r = .cmd → s.busy = false → 8 < v.toNat → v.toNat < 256 →
        step s = .next { raiseErr .cmdIllegal a true s with agenda := rest, history := s.history ++ [.write a n v (some .cmdIllegal)] }) ∧
      (∀ i, r = .cmd → s.busy = false → decodeWord v = .ok i →
        step s = exec i { s with agenda := rest, history := s.history ++ [.write a n v none] }) ∧
      (r = .mpptDuty → s.busy = false → ¬ (fLe fZero v = true ∧ fLe v fOne = true) →
        step s = .next { raiseErr .dutyRange a true s with agenda := rest, history := s.history ++ [.write a n v (some .dutyRange)] }) ∧
      (r = .mpptDuty → s.busy = false → fLe fZero v = true → fLe v fOne = true →
        step s = .next { s with mppt := { s.mppt with duty := v }, agenda := rest, history := s.history ++ [.write a n v none] }) ∧
      (r.access = .rw → s.busy = false →
        step s = .next { storeReg r v s with agenda := rest, history := s.history ++ [.write a n v none] }))

/-- R22, R29, R30, R31, R32, R44: what a store into a read-write register leaves: that register reads as written with its reserved bits 0, and
every other register reads as before. -/
def Obligations.StoreThenReadRegister : Prop :=
  ∀ (s : State) (r q : Reg) (v : Word), r.access = .rw →
    (q ≠ r → readReg q (storeReg r v s) = readReg q s) ∧
    (r = .ctrl → readReg r (storeReg r v s) = v &&& 0x3#64) ∧
    (r = .periodTicks ∨ r = .deadTime → readReg r (storeReg r v s) = v &&& 0xFFFFFFFF#64) ∧
    (r ≠ .ctrl → r ≠ .periodTicks → r ≠ .deadTime → readReg r (storeReg r v s) = v)

/-- R24, R25: the layout of STATUS as read: live bits 0, 1 and 4..2 (values 6 and 7 never occur), sticky bits 8, 9, 16..20, all others 0. -/
def Obligations.StatusLayout : Prop :=
  ∀ s : State,
    (readReg .status s).getLsbD 0 = s.busy ∧ (readReg .status s).getLsbD 1 = s.running ∧
    ((readReg .status s).extractLsb' 2 3).toNat =
      (match s.seq with | .idle => 0 | .exec => 1 | .acqGrid => 2 | .acqPv => 3 | .compute => 4 | .waitTick => 5) ∧
    (readReg .status s).getLsbD 8 = s.sticky.err ∧ (readReg .status s).getLsbD 9 = s.sticky.errMulti ∧
    (readReg .status s).getLsbD 16 = s.sticky.dutySatHi ∧ (readReg .status s).getLsbD 17 = s.sticky.dutySatLo ∧
    (readReg .status s).getLsbD 18 = s.sticky.angleRange ∧ (readReg .status s).getLsbD 19 = s.sticky.nonfinite ∧
    (readReg .status s).getLsbD 20 = s.sticky.mapSat ∧ readReg .status s &&& 0xFFFFFFFFFFE0FCE0#64 = 0

/-- R26, R200: the layout of ERR_CAUSE as read, with the cause codes; all 0 where nothing is recorded. -/
def Obligations.ErrCauseLayout : Prop :=
  ∀ s : State,
    (s.errCause = none → readReg .errCause s = 0) ∧
    (∀ r : ErrRecord, s.errCause = some r →
      ((readReg .errCause s).extractLsb' 0 8).toNat =
        (match r.cause with
          | .busAlign => 1 | .busUnmapped => 2 | .writeRo => 3 | .busy => 4 | .cmdReserved => 5 | .cmdIllegal => 6 | .dutyRange => 7) ∧
      (readReg .errCause s).extractLsb' 8 10 = r.offset ∧ (readReg .errCause s).getLsbD 18 = r.wr ∧
      (readReg .errCause s).toNat < 2 ^ 19)

/-- R73: the byte at offset k above a register's is lane k of it, little-endian, for every register and lane. -/
def Obligations.ByteViewIsLittleEndian : Prop :=
  ∀ (s : State) (r : Reg) (k : Nat), k < 8 →
    s.byteView (r.offset + BitVec.ofNat 10 k) = some ((readReg r s).extractLsb' (8 * k) 8)

/-- R8, R28: N_CHANNELS reads as one value from 1 to 2^32-1 in every state. -/
def Obligations.ChannelCountIsConstant : Prop :=
  ∀ s t : State, readReg .nChannels s = readReg .nChannels t ∧ 1 ≤ (readReg .nChannels s).toNat ∧ (readReg .nChannels s).toNat < 2 ^ 32

/-! The PLL. -/

/-- R110, R111: PLL_INIT latches the strategy and the snapshot, derives the coefficients in the order of R111, zeroes the PLL state with
COS = 1.0, and sets NONFINITE where a coefficient is not finite. -/
def Obligations.PllInitLatchesAndDerives : Prop :=
  ∀ s : State, s.seq = .exec → ∃ t, exec .pllInit s = .next t ∧
    t = { s with
      active := t.active
      pllSnap :=
        { fn := s.cfg.fNom, ts := s.cfg.ts, k := s.cfg.k, b0 := s.cfg.lfB0, b1 := s.cfg.lfB1, kp := s.cfg.kp, ki := s.cfg.ki
          qs := s.cfg.qscale }
      coef := t.coef
      pll :=
        { freq := 0, angle := 0, sin := 0, cos := 0x3FF0000000000000#64, qerr := 0, qerr1 := 0, derr := 0, lf0 := 0, lf1 := 0, integ := 0
          u0 := 0, u1 := 0, u2 := 0, ip0 := 0, ip1 := 0, ip2 := 0, qd0 := 0, qd1 := 0, qd2 := 0 }
      sticky := { s.sticky with nonfinite := t.sticky.nonfinite }
      pending := none, busy := false, seq := .idle } ∧
    t.active.getLsbD 0 = s.ctrl.getLsbD 0 ∧ t.active.getLsbD 1 = s.active.getLsbD 1 ∧
    (t.sticky.nonfinite = true ↔ s.sticky.nonfinite = true ∨
      ∃ c ∈ [t.coef.b0, t.coef.b2, t.coef.a1, t.coef.a2, t.coef.qb0, t.coef.qb1, t.coef.qb2], isFinite c = false) ∧
    ∃ wn x w y temp : F64,
      wn = fMul twoPi s.cfg.fNom ∧ x = fMul (fMul (fMul fTwo s.cfg.k) wn) s.cfg.ts ∧ w = fMul wn s.cfg.ts ∧ y = fMul w w ∧
      temp = fDiv fOne (fAdd (fAdd x y) fFour) ∧
      t.coef.b0 = fMul x temp ∧ t.coef.b2 = fNegate t.coef.b0 ∧ t.coef.a1 = fMul (fMul fTwo (fSub fFour y)) temp ∧
      t.coef.a2 = fMul (fSub (fSub x y) fFour) temp ∧ t.coef.qb0 = fMul (fMul fHalf y) temp ∧
      t.coef.qb1 = fMul fTwo t.coef.qb0 ∧ t.coef.qb2 = t.coef.qb0

/-- R113, R114, R115, R116 in the order of R112: PLL_UPDATE under strategy A, every PLL register; INTEG is not written (R36). -/
def Obligations.PllUpdateStrategyA : Prop :=
  ∀ s : State, s.seq = .exec → s.active.getLsbD 0 = false → ∃ t, exec .pllUpdate s = .next t ∧
    t = { s with
      pll := t.pll
      sticky := { s.sticky with angleRange := t.sticky.angleRange, nonfinite := t.sticky.nonfinite }
      pending := none, busy := false, seq := .idle } ∧
    t.pll.u0 = s.inp.sampleIn ∧ t.pll.u1 = s.pll.u0 ∧ t.pll.u2 = s.pll.u1 ∧
    t.pll.ip0 = fAdd (fAdd (fMul s.coef.b0 (fSub t.pll.u0 t.pll.u2)) (fMul s.coef.a1 s.pll.ip0)) (fMul s.coef.a2 s.pll.ip1) ∧
    t.pll.ip1 = s.pll.ip0 ∧ t.pll.ip2 = s.pll.ip1 ∧
    t.pll.qd0 =
      fAdd (fAdd (fAdd (fAdd (fMul s.coef.qb0 t.pll.u0) (fMul s.coef.qb1 t.pll.u1)) (fMul s.coef.qb2 t.pll.u2)) (fMul s.coef.a1 s.pll.qd0))
        (fMul s.coef.a2 s.pll.qd1) ∧
    t.pll.qd1 = s.pll.qd0 ∧ t.pll.qd2 = s.pll.qd1 ∧
    t.pll.qerr1 = s.pll.qerr ∧ t.pll.qerr = fAdd (fMul s.pll.cos t.pll.ip0) (fMul s.pll.sin t.pll.qd0) ∧
    t.pll.derr = fSub (fMul s.pll.cos t.pll.qd0) (fMul s.pll.sin t.pll.ip0) ∧
    t.pll.lf0 = fAdd (fAdd s.pll.lf0 (fMul s.pllSnap.b0 t.pll.qerr)) (fMul s.pllSnap.b1 t.pll.qerr1) ∧
    t.pll.lf1 = s.pll.lf0 ∧ t.pll.integ = s.pll.integ ∧ t.pll.freq = fAdd s.pllSnap.fn t.pll.lf0 ∧
    (∃ a, a = fAdd s.pll.angle (fMul (fMul t.pll.freq s.pllSnap.ts) twoPi) ∧
      t.pll.angle = (if fGe a twoPi then fSub a twoPi else a)) ∧
    t.pll.sin = sinF t.pll.angle ∧ t.pll.cos = cosF t.pll.angle

/-- R119, R114, R120, R116 in the order of R112: PLL_UPDATE under strategy B, every PLL register. -/
def Obligations.PllUpdateStrategyB : Prop :=
  ∀ s : State, s.seq = .exec → s.active.getLsbD 0 = true → ∃ t, exec .pllUpdate s = .next t ∧
    t = { s with
      pll := t.pll
      sticky := { s.sticky with angleRange := t.sticky.angleRange, nonfinite := t.sticky.nonfinite }
      pending := none, busy := false, seq := .idle } ∧
    t.pll.u0 = s.inp.sampleIn ∧ t.pll.u1 = s.pll.u0 ∧ t.pll.u2 = s.pll.u1 ∧
    t.pll.ip0 = s.inp.sampleIn ∧ t.pll.ip1 = s.pll.ip0 ∧ t.pll.ip2 = s.pll.ip1 ∧
    t.pll.qd0 = fAdd s.pll.qd0 (fMul (fSub s.inp.sampleIn s.pll.u0) s.pllSnap.qs) ∧ t.pll.qd1 = s.pll.qd0 ∧ t.pll.qd2 = s.pll.qd1 ∧
    t.pll.qerr1 = s.pll.qerr ∧ t.pll.qerr = fAdd (fMul s.pll.cos t.pll.ip0) (fMul s.pll.sin t.pll.qd0) ∧
    t.pll.derr = fSub (fMul s.pll.cos t.pll.qd0) (fMul s.pll.sin t.pll.ip0) ∧
    t.pll.integ = fAdd s.pll.integ (fMul (fMul s.pllSnap.ki t.pll.qerr) s.pllSnap.ts) ∧
    t.pll.lf0 = fAdd (fMul s.pllSnap.kp t.pll.qerr) t.pll.integ ∧
    t.pll.lf1 = s.pll.lf0 ∧ t.pll.freq = fAdd s.pllSnap.fn t.pll.lf0 ∧
    (∃ a, a = fAdd s.pll.angle (fMul (fMul t.pll.freq s.pllSnap.ts) twoPi) ∧
      t.pll.angle = (if fGe a twoPi then fSub a twoPi else a)) ∧
    t.pll.sin = sinF t.pll.angle ∧ t.pll.cos = cosF t.pll.angle

/-- R117, R121: the two flags of a PLL update, under either strategy: ANGLE_RANGE is set where not (0 <= angle and angle < TWO_PI), NONFINITE
where a listed register is NaN or infinite; neither is ever cleared by it. -/
def Obligations.PllUpdateFlags : Prop :=
  ∀ s : State, s.seq = .exec → ∃ t, exec .pllUpdate s = .next t ∧
    (t.sticky.angleRange = true ↔
      s.sticky.angleRange = true ∨ ¬ (fGe t.pll.angle fZero = true ∧ fLt t.pll.angle twoPi = true)) ∧
    (t.sticky.nonfinite = true ↔ s.sticky.nonfinite = true ∨
      ∃ x ∈ [t.pll.freq, t.pll.angle, t.pll.sin, t.pll.cos, t.pll.qerr, t.pll.derr, t.pll.lf0, t.pll.integ, t.pll.u0, t.pll.ip0, t.pll.qd0],
        isFinite x = false)

/-- R124, which the spec marks as derived from R116 and R11: the wrap invariant with its precondition on the computed increment; without it the angle can leave the range on either side. -/
def Obligations.AngleStaysInRange : Prop :=
  (∀ s : State, s.seq = .exec → ∃ t, exec .pllUpdate s = .next t ∧
    (fGe s.pll.angle fZero = true → fLt s.pll.angle twoPi = true →
      fGe (fMul (fMul t.pll.freq s.pllSnap.ts) twoPi) fZero = true →
      fLt (fMul (fMul t.pll.freq s.pllSnap.ts) twoPi) twoPi = true →
      fGe t.pll.angle fZero = true ∧ fLt t.pll.angle twoPi = true ∧ t.sticky.angleRange = s.sticky.angleRange)) ∧
  (∃ s t : State, s.seq = .exec ∧ fGe s.pll.angle fZero = true ∧ fLt s.pll.angle twoPi = true ∧ exec .pllUpdate s = .next t ∧
    fLt (fMul (fMul t.pll.freq s.pllSnap.ts) twoPi) fZero = true ∧ fLt t.pll.angle fZero = true) ∧
  (∃ s t : State, s.seq = .exec ∧ fGe s.pll.angle fZero = true ∧ fLt s.pll.angle twoPi = true ∧ exec .pllUpdate s = .next t ∧
    fGe (fMul (fMul t.pll.freq s.pllSnap.ts) twoPi) twoPi = true ∧ fGe t.pll.angle twoPi = true)

/-- R127, last bullet: with zero gains and finite errors the loop is open. Strategy A keeps LF0 = 0, strategy B keeps INTEG = 0 (and so
LF0 = 0) where the sample period is finite too, and either keeps the frequency at the nominal one. -/
def Obligations.ZeroGainsRunOpenLoop : Prop :=
  ∀ s : State, s.seq = .exec → isFinite s.pllSnap.fn = true →
    (s.active.getLsbD 0 = false → s.pllSnap.b0 = fZero → s.pllSnap.b1 = fZero → s.pll.lf0 = fZero → isFinite s.pll.qerr = true →
      ∃ t, exec .pllUpdate s = .next t ∧
        (isFinite t.pll.qerr = true → t.pll.lf0 = fZero ∧ fEq t.pll.freq s.pllSnap.fn = true)) ∧
    (s.active.getLsbD 0 = true → s.pllSnap.kp = fZero → s.pllSnap.ki = fZero → s.pll.integ = fZero → isFinite s.pllSnap.ts = true →
      ∃ t, exec .pllUpdate s = .next t ∧
        (isFinite t.pll.qerr = true → t.pll.integ = fZero ∧ t.pll.lf0 = fZero ∧ fEq t.pll.freq s.pllSnap.fn = true))

/-! The MPPT engine. -/

/-- R150: MPPT_INIT latches the policy and the snapshot and zeroes the MPPT state. -/
def Obligations.MpptInitLatches : Prop :=
  ∀ s : State, s.seq = .exec → ∃ t, exec .mpptInit s = .next t ∧
    t = { s with
      active := t.active
      mpptSnap := { delta := s.cfg.mpptDelta, min := s.cfg.dutyMin, max := s.cfg.dutyMax }
      mppt := { prevV := 0, prevP := 0, duty := 0 }
      pending := none, busy := false, seq := .idle } ∧
    t.active.getLsbD 1 = s.ctrl.getLsbD 1 ∧ t.active.getLsbD 0 = s.active.getLsbD 0

/-- R153, R154: policy A. Where dP < 0 or dP > 0, dV < 0 lowers the duty by DELTAn and dV > 0 raises it, whichever the sign of dP; where
dP or dV is zero or NaN the duty is held; the candidate is clamped (R152); PREV_V, PREV_P are written on every update. -/
def Obligations.MpptPolicyATable : Prop :=
  ∀ s : State, s.seq = .exec → s.active.getLsbD 1 = false → ∃ t n dV dP, exec .mpptUpdate s = .next t ∧
    t = { s with
      mppt :=
        { prevV := s.inp.pvV, prevP := fMul s.inp.pvV s.inp.pvI
          duty := if fGt n s.mpptSnap.max then s.mpptSnap.max else if fLt n s.mpptSnap.min then s.mpptSnap.min else n }
      sticky :=
        { s.sticky with dutySatHi := t.sticky.dutySatHi, dutySatLo := t.sticky.dutySatLo, nonfinite := t.sticky.nonfinite }
      pending := none, busy := false, seq := .idle } ∧
    dV = fSub s.inp.pvV s.mppt.prevV ∧ dP = fSub (fMul s.inp.pvV s.inp.pvI) s.mppt.prevP ∧
    (fLt dP 0 = true ∨ fGt dP 0 = true → fLt dV 0 = true → n = fSub s.mppt.duty s.mpptSnap.delta) ∧
    (fLt dP 0 = true ∨ fGt dP 0 = true → fGt dV 0 = true → n = fAdd s.mppt.duty s.mpptSnap.delta) ∧
    (fEq dP 0 = true ∨ isNaN dP = true → n = s.mppt.duty) ∧
    (fEq dV 0 = true ∨ isNaN dV = true → n = s.mppt.duty)

/-- R155: policy B, the equal and the NaN power stepping down; PREV_V is not written. -/
def Obligations.MpptPolicyB : Prop :=
  ∀ s : State, s.seq = .exec → s.active.getLsbD 1 = true → ∃ t n, exec .mpptUpdate s = .next t ∧
    t = { s with
      mppt :=
        { prevV := s.mppt.prevV, prevP := fMul s.inp.pvV s.inp.pvI
          duty := if fGt n s.mpptSnap.max then s.mpptSnap.max else if fLt n s.mpptSnap.min then s.mpptSnap.min else n }
      sticky :=
        { s.sticky with dutySatHi := t.sticky.dutySatHi, dutySatLo := t.sticky.dutySatLo, nonfinite := t.sticky.nonfinite }
      pending := none, busy := false, seq := .idle } ∧
    (fGt (fMul s.inp.pvV s.inp.pvI) s.mppt.prevP = true → n = fAdd s.mppt.duty s.mpptSnap.delta) ∧
    (fGt (fMul s.inp.pvV s.inp.pvI) s.mppt.prevP = false → n = fSub s.mppt.duty s.mpptSnap.delta)

/-- R152, R156: the clamp of the candidate n that R153 gives under policy A and R155 under policy B, and the flags of an MPPT update: the
clamp gave a bound, kept the candidate (one equal to a bound among them), or left a value that is not finite. -/
def Obligations.MpptUpdateFlags : Prop :=
  ∀ s : State, s.seq = .exec → ∃ t n p dV dP, exec .mpptUpdate s = .next t ∧
    p = fMul s.inp.pvV s.inp.pvI ∧ dV = fSub s.inp.pvV s.mppt.prevV ∧ dP = fSub p s.mppt.prevP ∧
    (s.active.getLsbD 1 = false →
      n = (if (fLt dP 0 || fGt dP 0) && fLt dV 0 then fSub s.mppt.duty s.mpptSnap.delta
        else if (fLt dP 0 || fGt dP 0) && fGt dV 0 then fAdd s.mppt.duty s.mpptSnap.delta
        else s.mppt.duty)) ∧
    (s.active.getLsbD 1 = true →
      n = (if fGt p s.mppt.prevP then fAdd s.mppt.duty s.mpptSnap.delta else fSub s.mppt.duty s.mpptSnap.delta)) ∧
    (t.sticky.dutySatHi = true ↔ s.sticky.dutySatHi = true ∨ fGt n s.mpptSnap.max = true) ∧
    (t.sticky.dutySatLo = true ↔ s.sticky.dutySatLo = true ∨ (fGt n s.mpptSnap.max = false ∧ fLt n s.mpptSnap.min = true)) ∧
    (fGt n s.mpptSnap.max = true → t.mppt.duty = s.mpptSnap.max) ∧
    (fGt n s.mpptSnap.max = false → fLt n s.mpptSnap.min = true → t.mppt.duty = s.mpptSnap.min) ∧
    (fGt n s.mpptSnap.max = false → fLt n s.mpptSnap.min = false → t.mppt.duty = n) ∧
    (t.sticky.nonfinite = true ↔ s.sticky.nonfinite = true ∨ isFinite t.mppt.duty = false ∨ isFinite t.mppt.prevP = false ∨
      (s.active.getLsbD 1 = false ∧ isFinite t.mppt.prevV = false))

/-- R157, its first sentence: with finite bounds in order and a finite step and duty, an update leaves the duty within the bounds. -/
def Obligations.DutyStaysWithinBounds : Prop :=
  ∀ s : State, s.seq = .exec → isFinite s.mpptSnap.min = true → isFinite s.mpptSnap.max = true →
    fLe s.mpptSnap.min s.mpptSnap.max = true → isFinite s.mpptSnap.delta = true → isFinite s.mppt.duty = true →
    ∃ t, exec .mpptUpdate s = .next t ∧ fLe s.mpptSnap.min t.mppt.duty = true ∧ fLe t.mppt.duty s.mpptSnap.max = true

/-! The mapper. -/

/-- R170: MAP_INIT latches the period and the dead time, zeroes the count and emits ActConfig. -/
def Obligations.MapInitLatches : Prop :=
  ∀ s : State, s.seq = .exec →
    exec .mapInit s = .next { s with
      mapSnap := { per := s.cfg.periodTicks, dt := s.cfg.deadTime }
      mapOnTicks := 0
      history := s.history ++ [.actConfig s.cfg.periodTicks s.cfg.deadTime]
      pending := none, busy := false, seq := .idle }

/-- R171, R172, R173: MAP_UPDATE: the count, the one SetDuty event, and MAP_SAT exactly where the rounded product is replaced. -/
def Obligations.MapUpdateCounts : Prop :=
  ∀ s : State, s.seq = .exec → ∃ t k p x r, exec .mapUpdate s = .next t ∧
    t = { s with
      mapOnTicks := k
      history := s.history ++ [.setDuty k]
      sticky := { s.sticky with mapSat := t.sticky.mapSat }
      pending := none, busy := false, seq := .idle } ∧
    p = fOfNat s.mapSnap.per.toNat ∧ fValue p = s.mapSnap.per.toNat ∧ x = fMul p s.mppt.duty ∧ r = roundHalfAway x ∧
    (isNaN x = true ∨ fLt r fZero = true → k = 0 ∧ t.sticky.mapSat = true) ∧
    (isNaN x = false → fLt r fZero = false → fGt r p = true → k = s.mapSnap.per ∧ t.sticky.mapSat = true) ∧
    (isNaN x = false → fLt r fZero = false → fGt r p = false → (k.toNat : ℚ) = fValue r ∧ t.sticky.mapSat = s.sticky.mapSat)

/-- R176, which the spec marks as derived from R11 and R171: a duty in [0, 1] maps without saturation to at most PERn; the duties of the reset bounds are such, and the +0 duty maps to 0. -/
def Obligations.DutyInUnitRangeNeverSaturates : Prop :=
  ∀ s : State, s.seq = .exec →
    fLe fZero s.mppt.duty = true ∧ fLe s.mppt.duty fOne = true ∨
      fLe 0x3FA999999999999A#64 s.mppt.duty = true ∧ fLe s.mppt.duty 0x3FEE666666666666#64 = true →
    ∃ t, exec .mapUpdate s = .next t ∧ t.sticky.mapSat = s.sticky.mapSat ∧ t.mapOnTicks.toNat ≤ s.mapSnap.per.toNat ∧
      fLe fZero (fMul (fOfNat s.mapSnap.per.toNat) s.mppt.duty) = true ∧
      fLe (fMul (fOfNat s.mapSnap.per.toNat) s.mppt.duty) (fOfNat s.mapSnap.per.toNat) = true ∧
      (s.mppt.duty = fZero → t.mapOnTicks = 0)

/-- R175, which the spec marks as derived from R171: two MAP_UPDATE commands on the same period and duty leave the same count and emit equal SetDuty events. -/
def Obligations.MapUpdateIsIdempotent : Prop :=
  ∀ s u : State, s.seq = .exec → u.seq = .exec → s.mapSnap.per = u.mapSnap.per → s.mppt.duty = u.mppt.duty →
    ∃ t v k, exec .mapUpdate s = .next t ∧ exec .mapUpdate u = .next v ∧ t.mapOnTicks = k ∧ v.mapOnTicks = k ∧
      t.history = s.history ++ [.setDuty k] ∧ v.history = u.history ++ [.setDuty k]

/-! The sequencer. -/

/-- R181: NOP does nothing but complete. -/
def Obligations.NopOnlyCompletes : Prop :=
  ∀ s : State, s.seq = .exec → exec .nop s = .next { s with pending := none, busy := false, seq := .idle }

/-- R182 lines 2 and 3, R184: CYCLE and RUN take a delivery bit for bit and move on, and wait unchanged without one. -/
def Obligations.AcquisitionTakesDeliveries : Prop :=
  ∀ (i : Instr) (s : State) (rest : List Move), i = .cycle ∨ i = .run →
    (∀ g, s.seq = .acqGrid → s.agenda = .grid g :: rest →
      exec i s = .next { s with
        inp := { s.inp with sampleIn := g }, seq := .acqPv, history := s.history ++ [.grid g], agenda := rest }) ∧
    (∀ v c, s.seq = .acqPv → s.agenda = .pv v c :: rest →
      exec i s = .next { s with
        inp := { s.inp with pvV := v, pvI := c }, seq := .compute, history := s.history ++ [.pv v c], agenda := rest }) ∧
    (s.seq = .acqGrid → (∀ g r, s.agenda ≠ .grid g :: r) → exec i s = .next s) ∧
    (s.seq = .acqPv → (∀ v c r, s.agenda ≠ .pv v c :: r) → exec i s = .next s)

/-- R182 line 4, R183: the compute step of CYCLE leaves what PLL_UPDATE, MPPT_UPDATE and MAP_UPDATE executed one after the other leave, in one
transition, and completes. -/
def Obligations.CycleComputesAllThree : Prop :=
  ∀ s : State, s.seq = .compute → s.mode = .once → ∃ a b t,
    exec .pllUpdate { s with seq := .exec } = .next a ∧ exec .mpptUpdate { a with seq := .exec } = .next b ∧
    exec .mapUpdate { b with seq := .exec } = .next t ∧ exec .cycle s = .next t ∧
    t.seq = .idle ∧ t.pending = none ∧ t.busy = false ∧ t.history = s.history ++ [.setDuty t.mapOnTicks]

/-- R185 lines 4 and 5: the compute step of RUN leaves the same unit state with BUSY and PENDING kept and SEQ = WAIT_TICK; WAIT_TICK consumes
a pending tick and goes on, and waits unchanged without one. -/
def Obligations.RunComputesAndWaits : Prop :=
  ∀ s : State, s.mode = .loop →
    (s.seq = .compute → ∃ a b t,
      exec .pllUpdate { s with seq := .exec } = .next a ∧ exec .mpptUpdate { a with seq := .exec } = .next b ∧
      exec .mapUpdate { b with seq := .exec } = .next t ∧
      exec .run s = .next { t with seq := .waitTick, pending := s.pending, busy := s.busy }) ∧
    (s.seq = .waitTick → s.tickPending = true → exec .run s = .next { s with tickPending := false, seq := .acqGrid }) ∧
    (s.seq = .waitTick → s.tickPending = false → exec .run s = .next s)

/-- R47, R186: a tick is latched while RUNNING, merges with one already latched, and otherwise has no effect but its event. -/
def Obligations.TickIsLatchedWhileRunning : Prop :=
  ∀ (s : State) (rest : List Move), s.agenda = .tick :: rest →
    (s.running = true → step s = .next { s with tickPending := true, agenda := rest, history := s.history ++ [.tick] }) ∧
    (s.running = false → step s = .next { s with agenda := rest, history := s.history ++ [.tick] })

/-- R230, R231: reset, at any time, leaves the reset state, with the history kept and the reset appended. -/
def Obligations.ResetFromAnyState : Prop :=
  ∀ (s : State) (rest : List Move), s.agenda = .reset :: rest →
    step s = .next { State.reset with history := s.history ++ [.reset], agenda := rest }

/-- R21, R43: what a bus read of each aligned offset returns right after reset: the reset column of the register map, N_CHANNELS at 0x028, and
BUS_UNMAPPED with 0 at every other. -/
def Obligations.ResetRegisterValues : Prop :=
  (∀ p ∈ resetTable, readResult p.1 8 State.reset = (p.2, none)) ∧
  readResult 0x028#10 8 State.reset = (nChannels.setWidth 64, none) ∧
  (∀ a : Offset, a.toNat % 8 = 0 → a ≠ 0x028#10 → a ∉ resetTable.map Prod.fst → readResult a 8 State.reset = (0, some .busUnmapped))

/-- R231: the hidden and port state right after reset, and R48, R60, R174: in every state the requests are those of SEQ and the level outputs
show MAP_ON_TICKS, the snapshots PERn and DTn, and N_CHANNELS. That the history then holds the reset alone is the model's (assumption log 7), and that
the agenda is empty (assumption log 1). -/
def Obligations.ResetHiddenState : Prop :=
  State.reset.seq = .idle ∧ State.reset.pending = none ∧ State.reset.mode = .once ∧ State.reset.tickPending = false ∧
  State.reset.gridReq = false ∧ State.reset.pvReq = false ∧
  State.reset.pllSnap =
    { fn := 0x4049000000000000#64, ts := 0x3EF4F8B588E368F1#64, k := 0x3FE0000000000000#64, b0 := 0, b1 := 0, kp := 0, ki := 0, qs := 0 } ∧
  State.reset.mpptSnap = { delta := 0x3F747AE147AE147B#64, min := 0x3FA999999999999A#64, max := 0x3FEE666666666666#64 } ∧
  State.reset.mapSnap = { per := 0, dt := 0 } ∧
  State.reset.actTicks = 0 ∧ State.reset.actPeriod = 0 ∧ State.reset.actDeadTime = 0 ∧ State.reset.actChannels = nChannels ∧
  ∀ s : State,
    (s.gridReq = true ↔ s.seq = .acqGrid) ∧ (s.pvReq = true ↔ s.seq = .acqPv) ∧
    s.actTicks = s.mapOnTicks ∧ s.actPeriod = s.mapSnap.per ∧ s.actDeadTime = s.mapSnap.dt ∧ s.actChannels = nChannels

/-- R230: the bodies of the three INIT commands, run from any state whose CTRL and configuration registers hold their reset values, leave the
reset values in ACTIVE, the PLL, coefficient, MPPT and mapper registers and the snapshots, and set no flag. -/
def Obligations.ResetEqualsTheInits : Prop :=
  ∀ s : State, s.seq = .exec → s.ctrl = State.reset.ctrl → s.cfg = State.reset.cfg → ∃ a b t,
    exec .pllInit s = .next a ∧ exec .mpptInit { a with seq := .exec } = .next b ∧ exec .mapInit { b with seq := .exec } = .next t ∧
    t.active = State.reset.active ∧ t.pll = State.reset.pll ∧ t.coef = State.reset.coef ∧ t.mppt = State.reset.mppt ∧
    t.mapOnTicks = State.reset.mapOnTicks ∧ t.pllSnap = State.reset.pllSnap ∧ t.mpptSnap = State.reset.mpptSnap ∧
    t.mapSnap = State.reset.mapSnap ∧ t.sticky = s.sticky

/-- R97: a poll reads its register, and is done where the field equals the value; otherwise the read is made again after the core has had
its turn (the turn is the model's, assumption log 4, DESIGN CHOICE). What the history's entry of the read holds is the model's too (R62, assumption
log 12, DEDUCED). -/
def Obligations.PollReadsAgain : Prop :=
  ∀ (s : State) (r : Reg) (m v : Word) (rest : List Move), s.agenda = .poll r.offset m v :: rest →
    (readReg r s &&& m = v → step s = .next { s with agenda := rest, history := s.history ++ [.read r.offset 8 (readReg r s) none] }) ∧
    (readReg r s &&& m ≠ v → step s = .next { s with
      agenda := .core :: .poll r.offset m v :: rest, history := s.history ++ [.read r.offset 8 (readReg r s) none] })

/-! Binary64. -/

/-- R11: a sum or difference of finite values is finite exactly where the magnitude of the exact one is below 2^1024 - 2^970, half a unit
above the largest binary64, and is then the binary64 nearest to it, of two equally near the one with an even fraction; elsewhere it is the
infinity of its sign (the IEEE 754 default of overflow, PRESUMED, assumption log 11). Of all operands a difference is the sum with the negated
second one, which SpecialOperandResults then covers. -/
def Obligations.SumIsNearest : Prop :=
  (∀ x y : F64, isFinite x = true → isFinite y = true →
    (isFinite (fAdd x y) = true ↔ |fValue x + fValue y| < 2 ^ 1024 - 2 ^ 970) ∧
    (isFinite (fAdd x y) = false → fAdd x y = if 0 < fValue x + fValue y then 0x7FF0000000000000#64 else 0xFFF0000000000000#64) ∧
    (isFinite (fAdd x y) = true → ∀ z : F64, isFinite z = true →
      |fValue x + fValue y - fValue (fAdd x y)| ≤ |fValue x + fValue y - fValue z| ∧
      (|fValue x + fValue y - fValue (fAdd x y)| = |fValue x + fValue y - fValue z| → fValue z ≠ fValue (fAdd x y) →
        (fAdd x y).getLsbD 0 = false))) ∧
  (∀ x y : F64, isFinite x = true → isFinite y = true →
    (isFinite (fSub x y) = true ↔ |fValue x - fValue y| < 2 ^ 1024 - 2 ^ 970) ∧
    (isFinite (fSub x y) = false → fSub x y = if 0 < fValue x - fValue y then 0x7FF0000000000000#64 else 0xFFF0000000000000#64) ∧
    (isFinite (fSub x y) = true → ∀ z : F64, isFinite z = true →
      |fValue x - fValue y - fValue (fSub x y)| ≤ |fValue x - fValue y - fValue z| ∧
      (|fValue x - fValue y - fValue (fSub x y)| = |fValue x - fValue y - fValue z| → fValue z ≠ fValue (fSub x y) →
        (fSub x y).getLsbD 0 = false))) ∧
  (∀ x y : F64, fSub x y = fAdd x (fNegate y))

/-- R11: a product of finite values is finite exactly where the magnitude of the exact one is below 2^1024 - 2^970, half a unit above the largest
binary64, and is then the binary64 nearest to it, of two equally near the one with an even fraction; elsewhere it is the infinity of its sign
(the IEEE 754 default of overflow, PRESUMED, assumption log 11). -/
def Obligations.ProductIsNearest : Prop :=
  ∀ x y : F64, isFinite x = true → isFinite y = true →
    (isFinite (fMul x y) = true ↔ |fValue x * fValue y| < 2 ^ 1024 - 2 ^ 970) ∧
    (isFinite (fMul x y) = false → fMul x y = if 0 < fValue x * fValue y then 0x7FF0000000000000#64 else 0xFFF0000000000000#64) ∧
    (isFinite (fMul x y) = true → ∀ z : F64, isFinite z = true →
      |fValue x * fValue y - fValue (fMul x y)| ≤ |fValue x * fValue y - fValue z| ∧
      (|fValue x * fValue y - fValue (fMul x y)| = |fValue x * fValue y - fValue z| → fValue z ≠ fValue (fMul x y) →
        (fMul x y).getLsbD 0 = false))

/-- R11: a quotient of finite values, the divisor not zero, is finite exactly where the magnitude of the exact one is below 2^1024 - 2^970, half a unit above the largest
binary64, and is then the binary64 nearest to it, of two equally near the one with an even fraction; elsewhere it is the infinity of its sign
(the IEEE 754 default of overflow, PRESUMED, assumption log 11). -/
def Obligations.QuotientIsNearest : Prop :=
  ∀ x y : F64, isFinite x = true → isFinite y = true → fValue y ≠ 0 →
    (isFinite (fDiv x y) = true ↔ |fValue x / fValue y| < 2 ^ 1024 - 2 ^ 970) ∧
    (isFinite (fDiv x y) = false → fDiv x y = if 0 < fValue x / fValue y then 0x7FF0000000000000#64 else 0xFFF0000000000000#64) ∧
    (isFinite (fDiv x y) = true → ∀ z : F64, isFinite z = true →
      |fValue x / fValue y - fValue (fDiv x y)| ≤ |fValue x / fValue y - fValue z| ∧
      (|fValue x / fValue y - fValue (fDiv x y)| = |fValue x / fValue y - fValue z| → fValue z ≠ fValue (fDiv x y) →
        (fDiv x y).getLsbD 0 = false))

/-- R11: the comparisons of finite values are those of their exact values, the infinities lie below and above every finite value and each
equals itself, and with a NaN every ordered one and == are false and != is true. -/
def Obligations.ComparisonsAreOfValues : Prop :=
  ∀ x y : F64,
    (isFinite x = true → isFinite y = true →
      (fLt x y = true ↔ fValue x < fValue y) ∧ (fLe x y = true ↔ fValue x ≤ fValue y) ∧ (fGt x y = true ↔ fValue y < fValue x) ∧
      (fGe x y = true ↔ fValue y ≤ fValue x) ∧ (fEq x y = true ↔ fValue x = fValue y) ∧ (fNe x y = true ↔ fValue x ≠ fValue y)) ∧
    ((x = 0xFFF0000000000000#64 ∧ isFinite y = true) ∨ (isFinite x = true ∧ y = 0x7FF0000000000000#64) ∨
        (x = 0xFFF0000000000000#64 ∧ y = 0x7FF0000000000000#64) →
      (fLt x y = true ∧ fLe x y = true ∧ fGt x y = false ∧ fGe x y = false ∧ fEq x y = false ∧ fNe x y = true) ∧
      (fLt y x = false ∧ fLe y x = false ∧ fGt y x = true ∧ fGe y x = true ∧ fEq y x = false ∧ fNe y x = true)) ∧
    (x = 0xFFF0000000000000#64 ∨ x = 0x7FF0000000000000#64 →
      fLt x x = false ∧ fLe x x = true ∧ fGt x x = false ∧ fGe x x = true ∧ fEq x x = true ∧ fNe x x = false) ∧
    (isNaN x = true ∨ isNaN y = true →
      fLt x y = false ∧ fLe x y = false ∧ fGt x y = false ∧ fGe x y = false ∧ fEq x y = false ∧ fNe x y = true)

/-- R17: every NaN an operation or a trigonometric unit makes is the canonical one; negation flips the sign bit alone. -/
def Obligations.NanResultsAreCanonical : Prop :=
  ∀ x y : F64,
    (∀ r ∈ [fAdd x y, fSub x y, fMul x y, fDiv x y, sinF x, cosF x], isNaN r = true → r = 0x7FF8000000000000#64) ∧
    (∀ k, (fNegate x).getLsbD k = (x.getLsbD k != (k == 63)))

/-- R12: roundHalfAway of a finite value is the nearest integer, halfway cases away from zero, with the sign of the value. -/
def Obligations.RoundHalfAwayIsNearestInteger : Prop :=
  ∀ x : F64, isFinite x = true →
    isFinite (roundHalfAway x) = true ∧ fSignBit (roundHalfAway x) = fSignBit x ∧
    |fValue (roundHalfAway x)| = (⌊|fValue x| + 1 / 2⌋ : ℚ)

/-- R118: SIN_F and COS_F: exact at +0, NaN for NaN and infinities, and within some bound of the real functions on finite angles. -/
def Obligations.TrigUnitProperties : Prop :=
  sinF 0 = 0 ∧ cosF 0 = 0x3FF0000000000000#64 ∧
  (∀ x : F64, isFinite x = false → sinF x = 0x7FF8000000000000#64 ∧ cosF x = 0x7FF8000000000000#64) ∧
  (∀ x : F64, isFinite x = true → isFinite (sinF x) = true ∧ isFinite (cosF x) = true) ∧
  ∃ e : ℝ, TrigErrBound e

/-! Further statements. -/

/-- R21, R71: a bus read at each offset of the register map returns the field of the state that the commands write and read under that
register's name, and R99: the triple of that read, as the move makes it and as the history keeps it, is (R, offset, value read). What the
history's entry of the read holds is the model's (R62, assumption log 12, DEDUCED). -/
def Obligations.EachOffsetReadsItsField : Prop :=
  ∀ (s : State) (p : Offset × Word) (rest : List Move), p ∈ registerTable s → s.agenda = .read p.1 8 :: rest →
    step s = .next { s with agenda := rest, history := s.history ++ [.read p.1 8 p.2 none] } ∧
    busTriple (.read p.1 8) s = some (false, p.1, p.2) ∧
    busTriples (s.history ++ [.read p.1 8 p.2 none]) = busTriples s.history ++ [(false, p.1, p.2)]

/-- R11, R17: the default results of IEEE 754 on NaNs, infinities and zeros (PRESUMED beyond the words of R11, assumption log 11): a NaN
operand gives a NaN; the sum with one infinity is that infinity, of two alike the same, of opposite ones a NaN; an exactly zero sum is -0 only
of two negative operands; a product or quotient that is no NaN has the sign of its operands' signs; infinity times zero, infinity over
infinity and zero over zero are NaN; the other products and quotients with an infinity, and a division by zero, are infinities or zeros. -/
def Obligations.SpecialOperandResults : Prop :=
  ∀ x y : F64,
    (isNaN x = true ∨ isNaN y = true → isNaN (fAdd x y) = true ∧ isNaN (fMul x y) = true ∧ isNaN (fDiv x y) = true) ∧
    (isInf x = true → isFinite y = true → fAdd x y = x ∧ fAdd y x = x) ∧
    (isInf x = true → fAdd x x = x ∧ isNaN (fAdd x (fNegate x)) = true) ∧
    (isFinite x = true → isFinite y = true → fValue x + fValue y = 0 →
      fAdd x y = if fSignBit x && fSignBit y then 0x8000000000000000#64 else 0) ∧
    (isNaN (fMul x y) = false → fSignBit (fMul x y) = (fSignBit x != fSignBit y)) ∧
    (isNaN (fDiv x y) = false → fSignBit (fDiv x y) = (fSignBit x != fSignBit y)) ∧
    (isInf x = true → fEq y fZero = true → isNaN (fMul x y) = true ∧ isNaN (fMul y x) = true) ∧
    (isInf x = true → isNaN y = false → fEq y fZero = false → isInf (fMul x y) = true ∧ isInf (fMul y x) = true) ∧
    (isInf x = true → isInf y = true → isNaN (fDiv x y) = true) ∧
    (isInf x = true → isFinite y = true → isInf (fDiv x y) = true) ∧
    (isFinite x = true → isInf y = true → fEq (fDiv x y) fZero = true) ∧
    (fEq x fZero = true → fEq y fZero = true → isNaN (fDiv x y) = true) ∧
    (isFinite x = true → fEq x fZero = false → fEq y fZero = true → isInf (fDiv x y) = true)
end

