-- ==== Sys2Proof/Laws/State.lean ====
section
/-! SUPPORT. Beside State: for each update of the state, what every field is after it. No later proof unfolds a record update. -/

namespace Sys2Proof.Machine

@[simp] theorem State.emit_ctrl (e : Event) (s : State) : (s.emit e).ctrl = s.ctrl := rfl
@[simp] theorem State.emit_active (e : Event) (s : State) : (s.emit e).active = s.active := rfl
@[simp] theorem State.emit_busy (e : Event) (s : State) : (s.emit e).busy = s.busy := rfl
@[simp] theorem State.emit_running (e : Event) (s : State) : (s.emit e).running = s.running := rfl
@[simp] theorem State.emit_seq (e : Event) (s : State) : (s.emit e).seq = s.seq := rfl
@[simp] theorem State.emit_pending (e : Event) (s : State) : (s.emit e).pending = s.pending := rfl
@[simp] theorem State.emit_mode (e : Event) (s : State) : (s.emit e).mode = s.mode := rfl
@[simp] theorem State.emit_tickPending (e : Event) (s : State) : (s.emit e).tickPending = s.tickPending := rfl
@[simp] theorem State.emit_sticky (e : Event) (s : State) : (s.emit e).sticky = s.sticky := rfl
@[simp] theorem State.emit_errCause (e : Event) (s : State) : (s.emit e).errCause = s.errCause := rfl
@[simp] theorem State.emit_cfg (e : Event) (s : State) : (s.emit e).cfg = s.cfg := rfl
@[simp] theorem State.emit_inp (e : Event) (s : State) : (s.emit e).inp = s.inp := rfl
@[simp] theorem State.emit_pll (e : Event) (s : State) : (s.emit e).pll = s.pll := rfl
@[simp] theorem State.emit_coef (e : Event) (s : State) : (s.emit e).coef = s.coef := rfl
@[simp] theorem State.emit_mppt (e : Event) (s : State) : (s.emit e).mppt = s.mppt := rfl
@[simp] theorem State.emit_mapOnTicks (e : Event) (s : State) : (s.emit e).mapOnTicks = s.mapOnTicks := rfl
@[simp] theorem State.emit_pllSnap (e : Event) (s : State) : (s.emit e).pllSnap = s.pllSnap := rfl
@[simp] theorem State.emit_mpptSnap (e : Event) (s : State) : (s.emit e).mpptSnap = s.mpptSnap := rfl
@[simp] theorem State.emit_mapSnap (e : Event) (s : State) : (s.emit e).mapSnap = s.mapSnap := rfl
@[simp] theorem State.emit_history (e : Event) (s : State) : (s.emit e).history = s.history ++ [e] := rfl
@[simp] theorem State.emit_agenda (e : Event) (s : State) : (s.emit e).agenda = s.agenda := rfl

@[simp] theorem State.pop_ctrl (s : State) : (s.pop).ctrl = s.ctrl := rfl
@[simp] theorem State.pop_active (s : State) : (s.pop).active = s.active := rfl
@[simp] theorem State.pop_busy (s : State) : (s.pop).busy = s.busy := rfl
@[simp] theorem State.pop_running (s : State) : (s.pop).running = s.running := rfl
@[simp] theorem State.pop_seq (s : State) : (s.pop).seq = s.seq := rfl
@[simp] theorem State.pop_pending (s : State) : (s.pop).pending = s.pending := rfl
@[simp] theorem State.pop_mode (s : State) : (s.pop).mode = s.mode := rfl
@[simp] theorem State.pop_tickPending (s : State) : (s.pop).tickPending = s.tickPending := rfl
@[simp] theorem State.pop_sticky (s : State) : (s.pop).sticky = s.sticky := rfl
@[simp] theorem State.pop_errCause (s : State) : (s.pop).errCause = s.errCause := rfl
@[simp] theorem State.pop_cfg (s : State) : (s.pop).cfg = s.cfg := rfl
@[simp] theorem State.pop_inp (s : State) : (s.pop).inp = s.inp := rfl
@[simp] theorem State.pop_pll (s : State) : (s.pop).pll = s.pll := rfl
@[simp] theorem State.pop_coef (s : State) : (s.pop).coef = s.coef := rfl
@[simp] theorem State.pop_mppt (s : State) : (s.pop).mppt = s.mppt := rfl
@[simp] theorem State.pop_mapOnTicks (s : State) : (s.pop).mapOnTicks = s.mapOnTicks := rfl
@[simp] theorem State.pop_pllSnap (s : State) : (s.pop).pllSnap = s.pllSnap := rfl
@[simp] theorem State.pop_mpptSnap (s : State) : (s.pop).mpptSnap = s.mpptSnap := rfl
@[simp] theorem State.pop_mapSnap (s : State) : (s.pop).mapSnap = s.mapSnap := rfl
@[simp] theorem State.pop_history (s : State) : (s.pop).history = s.history := rfl
@[simp] theorem State.pop_agenda (s : State) : (s.pop).agenda = s.agenda.tail := rfl

@[simp] theorem State.push_ctrl (m : Move) (s : State) : (s.push m).ctrl = s.ctrl := rfl
@[simp] theorem State.push_active (m : Move) (s : State) : (s.push m).active = s.active := rfl
@[simp] theorem State.push_busy (m : Move) (s : State) : (s.push m).busy = s.busy := rfl
@[simp] theorem State.push_running (m : Move) (s : State) : (s.push m).running = s.running := rfl
@[simp] theorem State.push_seq (m : Move) (s : State) : (s.push m).seq = s.seq := rfl
@[simp] theorem State.push_pending (m : Move) (s : State) : (s.push m).pending = s.pending := rfl
@[simp] theorem State.push_mode (m : Move) (s : State) : (s.push m).mode = s.mode := rfl
@[simp] theorem State.push_tickPending (m : Move) (s : State) : (s.push m).tickPending = s.tickPending := rfl
@[simp] theorem State.push_sticky (m : Move) (s : State) : (s.push m).sticky = s.sticky := rfl
@[simp] theorem State.push_errCause (m : Move) (s : State) : (s.push m).errCause = s.errCause := rfl
@[simp] theorem State.push_cfg (m : Move) (s : State) : (s.push m).cfg = s.cfg := rfl
@[simp] theorem State.push_inp (m : Move) (s : State) : (s.push m).inp = s.inp := rfl
@[simp] theorem State.push_pll (m : Move) (s : State) : (s.push m).pll = s.pll := rfl
@[simp] theorem State.push_coef (m : Move) (s : State) : (s.push m).coef = s.coef := rfl
@[simp] theorem State.push_mppt (m : Move) (s : State) : (s.push m).mppt = s.mppt := rfl
@[simp] theorem State.push_mapOnTicks (m : Move) (s : State) : (s.push m).mapOnTicks = s.mapOnTicks := rfl
@[simp] theorem State.push_pllSnap (m : Move) (s : State) : (s.push m).pllSnap = s.pllSnap := rfl
@[simp] theorem State.push_mpptSnap (m : Move) (s : State) : (s.push m).mpptSnap = s.mpptSnap := rfl
@[simp] theorem State.push_mapSnap (m : Move) (s : State) : (s.push m).mapSnap = s.mapSnap := rfl
@[simp] theorem State.push_history (m : Move) (s : State) : (s.push m).history = s.history := rfl
@[simp] theorem State.push_agenda (m : Move) (s : State) : (s.push m).agenda = m :: s.agenda := rfl

@[simp] theorem complete_ctrl (s : State) : (complete s).ctrl = s.ctrl := rfl
@[simp] theorem complete_active (s : State) : (complete s).active = s.active := rfl
@[simp] theorem complete_busy (s : State) : (complete s).busy = false := rfl
@[simp] theorem complete_running (s : State) : (complete s).running = s.running := rfl
@[simp] theorem complete_seq (s : State) : (complete s).seq = .idle := rfl
@[simp] theorem complete_pending (s : State) : (complete s).pending = none := rfl
@[simp] theorem complete_mode (s : State) : (complete s).mode = s.mode := rfl
@[simp] theorem complete_tickPending (s : State) : (complete s).tickPending = s.tickPending := rfl
@[simp] theorem complete_sticky (s : State) : (complete s).sticky = s.sticky := rfl
@[simp] theorem complete_errCause (s : State) : (complete s).errCause = s.errCause := rfl
@[simp] theorem complete_cfg (s : State) : (complete s).cfg = s.cfg := rfl
@[simp] theorem complete_inp (s : State) : (complete s).inp = s.inp := rfl
@[simp] theorem complete_pll (s : State) : (complete s).pll = s.pll := rfl
@[simp] theorem complete_coef (s : State) : (complete s).coef = s.coef := rfl
@[simp] theorem complete_mppt (s : State) : (complete s).mppt = s.mppt := rfl
@[simp] theorem complete_mapOnTicks (s : State) : (complete s).mapOnTicks = s.mapOnTicks := rfl
@[simp] theorem complete_pllSnap (s : State) : (complete s).pllSnap = s.pllSnap := rfl
@[simp] theorem complete_mpptSnap (s : State) : (complete s).mpptSnap = s.mpptSnap := rfl
@[simp] theorem complete_mapSnap (s : State) : (complete s).mapSnap = s.mapSnap := rfl
@[simp] theorem complete_history (s : State) : (complete s).history = s.history := rfl
@[simp] theorem complete_agenda (s : State) : (complete s).agenda = s.agenda := rfl

@[simp] theorem accept_ctrl (i : Instr) (s : State) : (accept i s).ctrl = s.ctrl := rfl
@[simp] theorem accept_active (i : Instr) (s : State) : (accept i s).active = s.active := rfl
@[simp] theorem accept_busy (i : Instr) (s : State) : (accept i s).busy = true := rfl
@[simp] theorem accept_running (i : Instr) (s : State) : (accept i s).running = (s.running || i == .run) := rfl
@[simp] theorem accept_seq (i : Instr) (s : State) : (accept i s).seq = acceptedSeq i := rfl
@[simp] theorem accept_pending (i : Instr) (s : State) : (accept i s).pending = some i := rfl
@[simp] theorem accept_mode (i : Instr) (s : State) : (accept i s).mode = acceptedMode i s.mode := rfl
@[simp] theorem accept_tickPending (i : Instr) (s : State) : (accept i s).tickPending = s.tickPending := rfl
@[simp] theorem accept_sticky (i : Instr) (s : State) : (accept i s).sticky = s.sticky := rfl
@[simp] theorem accept_errCause (i : Instr) (s : State) : (accept i s).errCause = s.errCause := rfl
@[simp] theorem accept_cfg (i : Instr) (s : State) : (accept i s).cfg = s.cfg := rfl
@[simp] theorem accept_inp (i : Instr) (s : State) : (accept i s).inp = s.inp := rfl
@[simp] theorem accept_pll (i : Instr) (s : State) : (accept i s).pll = s.pll := rfl
@[simp] theorem accept_coef (i : Instr) (s : State) : (accept i s).coef = s.coef := rfl
@[simp] theorem accept_mppt (i : Instr) (s : State) : (accept i s).mppt = s.mppt := rfl
@[simp] theorem accept_mapOnTicks (i : Instr) (s : State) : (accept i s).mapOnTicks = s.mapOnTicks := rfl
@[simp] theorem accept_pllSnap (i : Instr) (s : State) : (accept i s).pllSnap = s.pllSnap := rfl
@[simp] theorem accept_mpptSnap (i : Instr) (s : State) : (accept i s).mpptSnap = s.mpptSnap := rfl
@[simp] theorem accept_mapSnap (i : Instr) (s : State) : (accept i s).mapSnap = s.mapSnap := rfl
@[simp] theorem accept_history (i : Instr) (s : State) : (accept i s).history = s.history := rfl
@[simp] theorem accept_agenda (i : Instr) (s : State) : (accept i s).agenda = s.agenda := rfl

@[simp] theorem clearStatus_ctrl (v : Word) (s : State) : (clearStatus v s).ctrl = s.ctrl := rfl
@[simp] theorem clearStatus_active (v : Word) (s : State) : (clearStatus v s).active = s.active := rfl
@[simp] theorem clearStatus_busy (v : Word) (s : State) : (clearStatus v s).busy = s.busy := rfl
@[simp] theorem clearStatus_running (v : Word) (s : State) : (clearStatus v s).running = s.running := rfl
@[simp] theorem clearStatus_seq (v : Word) (s : State) : (clearStatus v s).seq = s.seq := rfl
@[simp] theorem clearStatus_pending (v : Word) (s : State) : (clearStatus v s).pending = s.pending := rfl
@[simp] theorem clearStatus_mode (v : Word) (s : State) : (clearStatus v s).mode = s.mode := rfl
@[simp] theorem clearStatus_tickPending (v : Word) (s : State) : (clearStatus v s).tickPending = s.tickPending := rfl
@[simp] theorem clearStatus_sticky (v : Word) (s : State) : (clearStatus v s).sticky = clearedSticky v s.sticky := rfl
@[simp] theorem clearStatus_errCause (v : Word) (s : State) : (clearStatus v s).errCause = (if v.getLsbD 8 then none else s.errCause) := rfl
@[simp] theorem clearStatus_cfg (v : Word) (s : State) : (clearStatus v s).cfg = s.cfg := rfl
@[simp] theorem clearStatus_inp (v : Word) (s : State) : (clearStatus v s).inp = s.inp := rfl
@[simp] theorem clearStatus_pll (v : Word) (s : State) : (clearStatus v s).pll = s.pll := rfl
@[simp] theorem clearStatus_coef (v : Word) (s : State) : (clearStatus v s).coef = s.coef := rfl
@[simp] theorem clearStatus_mppt (v : Word) (s : State) : (clearStatus v s).mppt = s.mppt := rfl
@[simp] theorem clearStatus_mapOnTicks (v : Word) (s : State) : (clearStatus v s).mapOnTicks = s.mapOnTicks := rfl
@[simp] theorem clearStatus_pllSnap (v : Word) (s : State) : (clearStatus v s).pllSnap = s.pllSnap := rfl
@[simp] theorem clearStatus_mpptSnap (v : Word) (s : State) : (clearStatus v s).mpptSnap = s.mpptSnap := rfl
@[simp] theorem clearStatus_mapSnap (v : Word) (s : State) : (clearStatus v s).mapSnap = s.mapSnap := rfl
@[simp] theorem clearStatus_history (v : Word) (s : State) : (clearStatus v s).history = s.history := rfl
@[simp] theorem clearStatus_agenda (v : Word) (s : State) : (clearStatus v s).agenda = s.agenda := rfl

@[simp] theorem takeTick_ctrl (s : State) : (takeTick s).ctrl = s.ctrl := rfl
@[simp] theorem takeTick_active (s : State) : (takeTick s).active = s.active := rfl
@[simp] theorem takeTick_busy (s : State) : (takeTick s).busy = s.busy := rfl
@[simp] theorem takeTick_running (s : State) : (takeTick s).running = s.running := rfl
@[simp] theorem takeTick_seq (s : State) : (takeTick s).seq = s.seq := rfl
@[simp] theorem takeTick_pending (s : State) : (takeTick s).pending = s.pending := rfl
@[simp] theorem takeTick_mode (s : State) : (takeTick s).mode = s.mode := rfl
@[simp] theorem takeTick_tickPending (s : State) : (takeTick s).tickPending = (s.tickPending || s.running) := rfl
@[simp] theorem takeTick_sticky (s : State) : (takeTick s).sticky = s.sticky := rfl
@[simp] theorem takeTick_errCause (s : State) : (takeTick s).errCause = s.errCause := rfl
@[simp] theorem takeTick_cfg (s : State) : (takeTick s).cfg = s.cfg := rfl
@[simp] theorem takeTick_inp (s : State) : (takeTick s).inp = s.inp := rfl
@[simp] theorem takeTick_pll (s : State) : (takeTick s).pll = s.pll := rfl
@[simp] theorem takeTick_coef (s : State) : (takeTick s).coef = s.coef := rfl
@[simp] theorem takeTick_mppt (s : State) : (takeTick s).mppt = s.mppt := rfl
@[simp] theorem takeTick_mapOnTicks (s : State) : (takeTick s).mapOnTicks = s.mapOnTicks := rfl
@[simp] theorem takeTick_pllSnap (s : State) : (takeTick s).pllSnap = s.pllSnap := rfl
@[simp] theorem takeTick_mpptSnap (s : State) : (takeTick s).mpptSnap = s.mpptSnap := rfl
@[simp] theorem takeTick_mapSnap (s : State) : (takeTick s).mapSnap = s.mapSnap := rfl
@[simp] theorem takeTick_history (s : State) : (takeTick s).history = s.history ++ [.tick] := rfl
@[simp] theorem takeTick_agenda (s : State) : (takeTick s).agenda = s.agenda := rfl

@[simp] theorem pllInitBody_ctrl (s : State) : (pllInitBody s).ctrl = s.ctrl := rfl
@[simp] theorem pllInitBody_active (s : State) : (pllInitBody s).active = latchPllAct s.ctrl s.active := rfl
@[simp] theorem pllInitBody_busy (s : State) : (pllInitBody s).busy = s.busy := rfl
@[simp] theorem pllInitBody_running (s : State) : (pllInitBody s).running = s.running := rfl
@[simp] theorem pllInitBody_seq (s : State) : (pllInitBody s).seq = s.seq := rfl
@[simp] theorem pllInitBody_pending (s : State) : (pllInitBody s).pending = s.pending := rfl
@[simp] theorem pllInitBody_mode (s : State) : (pllInitBody s).mode = s.mode := rfl
@[simp] theorem pllInitBody_tickPending (s : State) : (pllInitBody s).tickPending = s.tickPending := rfl
@[simp] theorem pllInitBody_sticky (s : State) : (pllInitBody s).sticky = stickyAfterPllInit (sogiCoefs (latchPllSnap s.cfg)) s.sticky := rfl
@[simp] theorem pllInitBody_errCause (s : State) : (pllInitBody s).errCause = s.errCause := rfl
@[simp] theorem pllInitBody_cfg (s : State) : (pllInitBody s).cfg = s.cfg := rfl
@[simp] theorem pllInitBody_inp (s : State) : (pllInitBody s).inp = s.inp := rfl
@[simp] theorem pllInitBody_pll (s : State) : (pllInitBody s).pll = pllInitial := rfl
@[simp] theorem pllInitBody_coef (s : State) : (pllInitBody s).coef = sogiCoefs (latchPllSnap s.cfg) := rfl
@[simp] theorem pllInitBody_mppt (s : State) : (pllInitBody s).mppt = s.mppt := rfl
@[simp] theorem pllInitBody_mapOnTicks (s : State) : (pllInitBody s).mapOnTicks = s.mapOnTicks := rfl
@[simp] theorem pllInitBody_pllSnap (s : State) : (pllInitBody s).pllSnap = latchPllSnap s.cfg := rfl
@[simp] theorem pllInitBody_mpptSnap (s : State) : (pllInitBody s).mpptSnap = s.mpptSnap := rfl
@[simp] theorem pllInitBody_mapSnap (s : State) : (pllInitBody s).mapSnap = s.mapSnap := rfl
@[simp] theorem pllInitBody_history (s : State) : (pllInitBody s).history = s.history := rfl
@[simp] theorem pllInitBody_agenda (s : State) : (pllInitBody s).agenda = s.agenda := rfl

@[simp] theorem mpptInitBody_ctrl (s : State) : (mpptInitBody s).ctrl = s.ctrl := rfl
@[simp] theorem mpptInitBody_active (s : State) : (mpptInitBody s).active = latchMpptAct s.ctrl s.active := rfl
@[simp] theorem mpptInitBody_busy (s : State) : (mpptInitBody s).busy = s.busy := rfl
@[simp] theorem mpptInitBody_running (s : State) : (mpptInitBody s).running = s.running := rfl
@[simp] theorem mpptInitBody_seq (s : State) : (mpptInitBody s).seq = s.seq := rfl
@[simp] theorem mpptInitBody_pending (s : State) : (mpptInitBody s).pending = s.pending := rfl
@[simp] theorem mpptInitBody_mode (s : State) : (mpptInitBody s).mode = s.mode := rfl
@[simp] theorem mpptInitBody_tickPending (s : State) : (mpptInitBody s).tickPending = s.tickPending := rfl
@[simp] theorem mpptInitBody_sticky (s : State) : (mpptInitBody s).sticky = s.sticky := rfl
@[simp] theorem mpptInitBody_errCause (s : State) : (mpptInitBody s).errCause = s.errCause := rfl
@[simp] theorem mpptInitBody_cfg (s : State) : (mpptInitBody s).cfg = s.cfg := rfl
@[simp] theorem mpptInitBody_inp (s : State) : (mpptInitBody s).inp = s.inp := rfl
@[simp] theorem mpptInitBody_pll (s : State) : (mpptInitBody s).pll = s.pll := rfl
@[simp] theorem mpptInitBody_coef (s : State) : (mpptInitBody s).coef = s.coef := rfl
@[simp] theorem mpptInitBody_mppt (s : State) : (mpptInitBody s).mppt = ⟨fZero, fZero, fZero⟩ := rfl
@[simp] theorem mpptInitBody_mapOnTicks (s : State) : (mpptInitBody s).mapOnTicks = s.mapOnTicks := rfl
@[simp] theorem mpptInitBody_pllSnap (s : State) : (mpptInitBody s).pllSnap = s.pllSnap := rfl
@[simp] theorem mpptInitBody_mpptSnap (s : State) : (mpptInitBody s).mpptSnap = latchMpptSnap s.cfg := rfl
@[simp] theorem mpptInitBody_mapSnap (s : State) : (mpptInitBody s).mapSnap = s.mapSnap := rfl
@[simp] theorem mpptInitBody_history (s : State) : (mpptInitBody s).history = s.history := rfl
@[simp] theorem mpptInitBody_agenda (s : State) : (mpptInitBody s).agenda = s.agenda := rfl

@[simp] theorem mapInitBody_ctrl (s : State) : (mapInitBody s).ctrl = s.ctrl := rfl
@[simp] theorem mapInitBody_active (s : State) : (mapInitBody s).active = s.active := rfl
@[simp] theorem mapInitBody_busy (s : State) : (mapInitBody s).busy = s.busy := rfl
@[simp] theorem mapInitBody_running (s : State) : (mapInitBody s).running = s.running := rfl
@[simp] theorem mapInitBody_seq (s : State) : (mapInitBody s).seq = s.seq := rfl
@[simp] theorem mapInitBody_pending (s : State) : (mapInitBody s).pending = s.pending := rfl
@[simp] theorem mapInitBody_mode (s : State) : (mapInitBody s).mode = s.mode := rfl
@[simp] theorem mapInitBody_tickPending (s : State) : (mapInitBody s).tickPending = s.tickPending := rfl
@[simp] theorem mapInitBody_sticky (s : State) : (mapInitBody s).sticky = s.sticky := rfl
@[simp] theorem mapInitBody_errCause (s : State) : (mapInitBody s).errCause = s.errCause := rfl
@[simp] theorem mapInitBody_cfg (s : State) : (mapInitBody s).cfg = s.cfg := rfl
@[simp] theorem mapInitBody_inp (s : State) : (mapInitBody s).inp = s.inp := rfl
@[simp] theorem mapInitBody_pll (s : State) : (mapInitBody s).pll = s.pll := rfl
@[simp] theorem mapInitBody_coef (s : State) : (mapInitBody s).coef = s.coef := rfl
@[simp] theorem mapInitBody_mppt (s : State) : (mapInitBody s).mppt = s.mppt := rfl
@[simp] theorem mapInitBody_mapOnTicks (s : State) : (mapInitBody s).mapOnTicks = 0 := rfl
@[simp] theorem mapInitBody_pllSnap (s : State) : (mapInitBody s).pllSnap = s.pllSnap := rfl
@[simp] theorem mapInitBody_mpptSnap (s : State) : (mapInitBody s).mpptSnap = s.mpptSnap := rfl
@[simp] theorem mapInitBody_mapSnap (s : State) : (mapInitBody s).mapSnap = latchMapSnap s.cfg := rfl
@[simp] theorem mapInitBody_history (s : State) : (mapInitBody s).history = s.history ++ [.actConfig s.cfg.periodTicks s.cfg.deadTime] := rfl
@[simp] theorem mapInitBody_agenda (s : State) : (mapInitBody s).agenda = s.agenda := rfl

@[simp] theorem pllUpdateBody_ctrl (s : State) : (pllUpdateBody s).ctrl = s.ctrl := rfl
@[simp] theorem pllUpdateBody_active (s : State) : (pllUpdateBody s).active = s.active := rfl
@[simp] theorem pllUpdateBody_busy (s : State) : (pllUpdateBody s).busy = s.busy := rfl
@[simp] theorem pllUpdateBody_running (s : State) : (pllUpdateBody s).running = s.running := rfl
@[simp] theorem pllUpdateBody_seq (s : State) : (pllUpdateBody s).seq = s.seq := rfl
@[simp] theorem pllUpdateBody_pending (s : State) : (pllUpdateBody s).pending = s.pending := rfl
@[simp] theorem pllUpdateBody_mode (s : State) : (pllUpdateBody s).mode = s.mode := rfl
@[simp] theorem pllUpdateBody_tickPending (s : State) : (pllUpdateBody s).tickPending = s.tickPending := rfl
@[simp] theorem pllUpdateBody_sticky (s : State) : (pllUpdateBody s).sticky = stickyAfterPll (pllNext s) s.sticky := rfl
@[simp] theorem pllUpdateBody_errCause (s : State) : (pllUpdateBody s).errCause = s.errCause := rfl
@[simp] theorem pllUpdateBody_cfg (s : State) : (pllUpdateBody s).cfg = s.cfg := rfl
@[simp] theorem pllUpdateBody_inp (s : State) : (pllUpdateBody s).inp = s.inp := rfl
@[simp] theorem pllUpdateBody_pll (s : State) : (pllUpdateBody s).pll = pllNext s := rfl
@[simp] theorem pllUpdateBody_coef (s : State) : (pllUpdateBody s).coef = s.coef := rfl
@[simp] theorem pllUpdateBody_mppt (s : State) : (pllUpdateBody s).mppt = s.mppt := rfl
@[simp] theorem pllUpdateBody_mapOnTicks (s : State) : (pllUpdateBody s).mapOnTicks = s.mapOnTicks := rfl
@[simp] theorem pllUpdateBody_pllSnap (s : State) : (pllUpdateBody s).pllSnap = s.pllSnap := rfl
@[simp] theorem pllUpdateBody_mpptSnap (s : State) : (pllUpdateBody s).mpptSnap = s.mpptSnap := rfl
@[simp] theorem pllUpdateBody_mapSnap (s : State) : (pllUpdateBody s).mapSnap = s.mapSnap := rfl
@[simp] theorem pllUpdateBody_history (s : State) : (pllUpdateBody s).history = s.history := rfl
@[simp] theorem pllUpdateBody_agenda (s : State) : (pllUpdateBody s).agenda = s.agenda := rfl

@[simp] theorem mpptUpdateBody_ctrl (s : State) : (mpptUpdateBody s).ctrl = s.ctrl := rfl
@[simp] theorem mpptUpdateBody_active (s : State) : (mpptUpdateBody s).active = s.active := rfl
@[simp] theorem mpptUpdateBody_busy (s : State) : (mpptUpdateBody s).busy = s.busy := rfl
@[simp] theorem mpptUpdateBody_running (s : State) : (mpptUpdateBody s).running = s.running := rfl
@[simp] theorem mpptUpdateBody_seq (s : State) : (mpptUpdateBody s).seq = s.seq := rfl
@[simp] theorem mpptUpdateBody_pending (s : State) : (mpptUpdateBody s).pending = s.pending := rfl
@[simp] theorem mpptUpdateBody_mode (s : State) : (mpptUpdateBody s).mode = s.mode := rfl
@[simp] theorem mpptUpdateBody_tickPending (s : State) : (mpptUpdateBody s).tickPending = s.tickPending := rfl
@[simp] theorem mpptUpdateBody_sticky (s : State) : (mpptUpdateBody s).sticky = stickyAfterMppt s.mpptSnap s.mpptActB (mpptCandidate s) (mpptNext s) s.sticky := rfl
@[simp] theorem mpptUpdateBody_errCause (s : State) : (mpptUpdateBody s).errCause = s.errCause := rfl
@[simp] theorem mpptUpdateBody_cfg (s : State) : (mpptUpdateBody s).cfg = s.cfg := rfl
@[simp] theorem mpptUpdateBody_inp (s : State) : (mpptUpdateBody s).inp = s.inp := rfl
@[simp] theorem mpptUpdateBody_pll (s : State) : (mpptUpdateBody s).pll = s.pll := rfl
@[simp] theorem mpptUpdateBody_coef (s : State) : (mpptUpdateBody s).coef = s.coef := rfl
@[simp] theorem mpptUpdateBody_mppt (s : State) : (mpptUpdateBody s).mppt = mpptNext s := rfl
@[simp] theorem mpptUpdateBody_mapOnTicks (s : State) : (mpptUpdateBody s).mapOnTicks = s.mapOnTicks := rfl
@[simp] theorem mpptUpdateBody_pllSnap (s : State) : (mpptUpdateBody s).pllSnap = s.pllSnap := rfl
@[simp] theorem mpptUpdateBody_mpptSnap (s : State) : (mpptUpdateBody s).mpptSnap = s.mpptSnap := rfl
@[simp] theorem mpptUpdateBody_mapSnap (s : State) : (mpptUpdateBody s).mapSnap = s.mapSnap := rfl
@[simp] theorem mpptUpdateBody_history (s : State) : (mpptUpdateBody s).history = s.history := rfl
@[simp] theorem mpptUpdateBody_agenda (s : State) : (mpptUpdateBody s).agenda = s.agenda := rfl

@[simp] theorem mapUpdateBody_ctrl (s : State) : (mapUpdateBody s).ctrl = s.ctrl := rfl
@[simp] theorem mapUpdateBody_active (s : State) : (mapUpdateBody s).active = s.active := rfl
@[simp] theorem mapUpdateBody_busy (s : State) : (mapUpdateBody s).busy = s.busy := rfl
@[simp] theorem mapUpdateBody_running (s : State) : (mapUpdateBody s).running = s.running := rfl
@[simp] theorem mapUpdateBody_seq (s : State) : (mapUpdateBody s).seq = s.seq := rfl
@[simp] theorem mapUpdateBody_pending (s : State) : (mapUpdateBody s).pending = s.pending := rfl
@[simp] theorem mapUpdateBody_mode (s : State) : (mapUpdateBody s).mode = s.mode := rfl
@[simp] theorem mapUpdateBody_tickPending (s : State) : (mapUpdateBody s).tickPending = s.tickPending := rfl
@[simp] theorem mapUpdateBody_sticky (s : State) : (mapUpdateBody s).sticky = stickyAfterMap (mapSaturates s.mapSnap.per s.mppt.duty) s.sticky := rfl
@[simp] theorem mapUpdateBody_errCause (s : State) : (mapUpdateBody s).errCause = s.errCause := rfl
@[simp] theorem mapUpdateBody_cfg (s : State) : (mapUpdateBody s).cfg = s.cfg := rfl
@[simp] theorem mapUpdateBody_inp (s : State) : (mapUpdateBody s).inp = s.inp := rfl
@[simp] theorem mapUpdateBody_pll (s : State) : (mapUpdateBody s).pll = s.pll := rfl
@[simp] theorem mapUpdateBody_coef (s : State) : (mapUpdateBody s).coef = s.coef := rfl
@[simp] theorem mapUpdateBody_mppt (s : State) : (mapUpdateBody s).mppt = s.mppt := rfl
@[simp] theorem mapUpdateBody_mapOnTicks (s : State) : (mapUpdateBody s).mapOnTicks = mapTicks s.mapSnap.per s.mppt.duty := rfl
@[simp] theorem mapUpdateBody_pllSnap (s : State) : (mapUpdateBody s).pllSnap = s.pllSnap := rfl
@[simp] theorem mapUpdateBody_mpptSnap (s : State) : (mapUpdateBody s).mpptSnap = s.mpptSnap := rfl
@[simp] theorem mapUpdateBody_mapSnap (s : State) : (mapUpdateBody s).mapSnap = s.mapSnap := rfl
@[simp] theorem mapUpdateBody_history (s : State) : (mapUpdateBody s).history = s.history ++ [.setDuty (mapTicks s.mapSnap.per s.mppt.duty)] := rfl
@[simp] theorem mapUpdateBody_agenda (s : State) : (mapUpdateBody s).agenda = s.agenda := rfl

end Sys2Proof.Machine
end

