-- ==== Sys2Proof/Laws/Bus.lean ====
section
/-! SUPPORT. What the shared operations and the bus can do, once for each: the error record, stores, reads, writes. -/

namespace Sys2Proof.Machine

theorem raiseErr_clear {s : State} (c : Cause) (a : Offset) (w : Bool) (h : s.sticky.err = false) :
    raiseErr c a w s = { s with sticky := { s.sticky with err := true }, errCause := some ⟨c, a, w⟩ } := by
  simp [raiseErr, h]

theorem raiseErr_again {s : State} (c : Cause) (a : Offset) (w : Bool) (h : s.sticky.err = true) :
    raiseErr c a w s = { s with sticky := { s.sticky with errMulti := true } } := by
  simp [raiseErr, h]

/-- Taking an error writes ERR, ERR_MULTI and ERR_CAUSE and nothing else (R201). -/
theorem raiseErr_frame (c : Cause) (a : Offset) (w : Bool) (s : State) :
    raiseErr c a w s =
      { s with
        sticky := { s.sticky with err := true, errMulti := s.sticky.errMulti || s.sticky.err }
        errCause := if s.sticky.err then s.errCause else some ⟨c, a, w⟩ } := by
  obtain ⟨_, _, _, _, _, _, _, _, ⟨e, m, _, _, _, _, _⟩, _⟩ := s
  cases e <;> cases m <;> rfl

/-- A recorded error, or none, leaves everything but the error record. -/
theorem recordErr_frame (err : Option Cause) (a : Offset) (w : Bool) (s : State) :
    ∃ e m c, recordErr err a w s = { s with sticky := { s.sticky with err := e, errMulti := m }, errCause := c } := by
  cases err with
  | none => exact ⟨s.sticky.err, s.sticky.errMulti, s.errCause, rfl⟩
  | some c => exact ⟨_, _, _, raiseErr_frame c a w s⟩

/-- A read changes nothing but the error record and the history (R71). -/
theorem busRead_frame (a : Offset) (n : Nat) (s : State) :
    ∃ e m c ev, busRead a n s =
      { s with sticky := { s.sticky with err := e, errMulti := m }, errCause := c, history := s.history ++ [ev] } := by
  obtain ⟨e, m, c, h⟩ := recordErr_frame (readResult a n s).2 a false s
  exact ⟨e, m, c, .read a n (readResult a n s).1 (readResult a n s).2, by rw [busRead, h]; rfl⟩

@[simp] theorem busTriples_append (h g : List Event) : busTriples (h ++ g) = busTriples h ++ busTriples g := List.filterMap_append

/-- A read adds the triple of its move to the encoding of the script (R99). -/
theorem busTriples_busRead (a : Offset) (n : Nat) (s : State) :
    busTriples (busRead a n s).history = busTriples s.history ++ [(false, a, (readResult a n s).1)] := by
  obtain ⟨_, _, _, h⟩ := recordErr_frame (readResult a n s).2 a false s
  simp [busRead, h, busTriples, Event.busTriple]

/-- A poll's read does so too. -/
theorem busTriples_pollRead (a : Offset) (mask value : Word) (s : State) :
    busTriples (pollRead a mask value s).history = busTriples s.history ++ [(false, a, (readResult a 8 s).1)] := by
  unfold pollRead
  split <;> simp [busTriples_busRead]

/-- A write adds the triple of its move, whatever it does (R99). -/
theorem busTriples_busWrite (act : WriteAction) (a : Offset) (n : Nat) (v : Word) (s : State) :
    busTriples (busWrite act a n v s).history = busTriples s.history ++ [(true, a, v)] := by
  cases act with
  | refuse c => simp [busWrite, raiseErr_frame, busTriples, Event.busTriple]
  | clear => simp [busWrite, clearStatus, busTriples, Event.busTriple]
  | issue i => simp [busWrite, busTriples, Event.busTriple]
  | store r =>
    have h : (storeReg r v s).history = s.history := by cases r <;> rfl
    simp [busWrite, h, busTriples, Event.busTriple]

/-- A poll is a read, and it may put the poll back behind the core's turn (R97). -/
theorem pollRead_frame (a : Offset) (mask value : Word) (s : State) :
    ∃ ms, pollRead a mask value s = { busRead a 8 s with agenda := ms } := by
  unfold pollRead
  split
  · exact ⟨(busRead a 8 s).agenda, rfl⟩
  · exact ⟨_, rfl⟩

/-- Every register of the map is in its table. -/
theorem Reg.mem_all (r : Reg) : r ∈ Reg.all := by cases r <;> decide

/-- The offsets of the map are distinct (R21). -/
theorem Reg.offset_injective {r q : Reg} (h : r.offset = q.offset) : r = q := by
  have key : ∀ r ∈ Reg.all, ∀ q ∈ Reg.all, r.offset = q.offset → r = q := by decide +kernel
  exact key r r.mem_all q q.mem_all h

/-- The register found at an offset has that offset. -/
theorem Reg.offset_of_ofOffset {a : Offset} {r : Reg} (h : Reg.ofOffset a = some r) : r.offset = a := by
  simpa using List.find?_some h

/-- Every register is found at its own offset (R21). -/
theorem Reg.ofOffset_offset (r : Reg) : Reg.ofOffset r.offset = some r := by cases r <;> decide

/-- Every register of the map lies at a multiple of 8 (R70, R74). -/
theorem Reg.misaligned_offset (r : Reg) : misaligned r.offset 8 = false := by cases r <;> decide

/-- A 64-bit read at a register's offset returns the register and raises nothing (R71). -/
theorem readResult_offset (r : Reg) (s : State) : readResult r.offset 8 s = (readReg r s, none) := by
  rw [readResult, Reg.misaligned_offset, Reg.ofOffset_offset]
  rfl

/-- A command is issued only by an aligned 64-bit write of its word to CMD while the machine is not busy (R72, R203). -/
theorem writeAction_issue {a : Offset} {n : Nat} {v : Word} {s : State} {i : Instr} (h : writeAction a n v s = .issue i) :
    a = Reg.cmd.offset ∧ n = 8 ∧ s.busy = false ∧ decodeWord v = .ok i := by
  unfold writeAction at h
  split at h
  · cases h
  · rename_i hal
    split at h
    · cases h
    · rename_i r hr
      unfold registerWriteAction at h
      have hn : n = 8 := by
        simp only [misaligned, Bool.or_eq_true, bne_iff_ne, not_or, not_not] at hal
        exact hal.1
      split at h
      · cases h
      · split at h
        · cases h
        · split at h
          · cases h
          · rename_i hb
            split at h
            · rename_i hc
              split at h
              · rename_i j hj
                cases h
                exact ⟨by rw [← Reg.offset_of_ofOffset hr, hc], hn, by simpa using hb, hj⟩
              · cases h
            · split at h <;> cases h

/-- A register is stored into only where the host may write it, while the machine is not busy (R72). -/
theorem writeAction_store {a : Offset} {n : Nat} {v : Word} {s : State} {r : Reg} (h : writeAction a n v s = .store r) :
    a = r.offset ∧ n = 8 ∧ s.busy = false ∧ r.access ≠ .ro ∧ r ≠ .status ∧ r ≠ .cmd ∧
      (r = .mpptDuty → dutyInRange v = true) := by
  unfold writeAction at h
  split at h
  · cases h
  · rename_i hal
    split at h
    · cases h
    · rename_i q hq
      unfold registerWriteAction at h
      have hn : n = 8 := by
        simp only [misaligned, Bool.or_eq_true, bne_iff_ne, not_or, not_not] at hal
        exact hal.1
      split at h
      · cases h
      · rename_i hro
        split at h
        · cases h
        · rename_i hst
          split at h
          · cases h
          · rename_i hb
            split at h
            · split at h <;> cases h
            · rename_i hcmd
              split at h
              · cases h
              · rename_i hd
                cases h
                refine ⟨(Reg.offset_of_ofOffset hq).symm, hn, by simpa using hb, hro, hst, hcmd, ?_⟩
                intro he
                simpa [he] using hd

/-- The sticky bits are cleared only by a 64-bit write to STATUS (R25, R72). -/
theorem writeAction_clear {a : Offset} {n : Nat} {v : Word} {s : State} (h : writeAction a n v s = .clear) :
    a = Reg.status.offset ∧ n = 8 := by
  unfold writeAction at h
  split at h
  · cases h
  · rename_i hal
    split at h
    · cases h
    · rename_i q hq
      have hn : n = 8 := by
        simp only [misaligned, Bool.or_eq_true, bne_iff_ne, not_or, not_not] at hal
        exact hal.1
      unfold registerWriteAction at h
      split at h
      · cases h
      · split at h
        · rename_i hst
          exact ⟨by rw [← Reg.offset_of_ofOffset hq, hst], hn⟩
        · split at h
          · cases h
          · split at h
            · split at h <;> cases h
            · split at h <;> cases h

/-- A store writes CTRL, a configuration register, an input register or the duty, and nothing else. -/
theorem storeReg_frame (r : Reg) (v : Word) (s : State) :
    ∃ ct cf inp d, storeReg r v s = { s with ctrl := ct, cfg := cf, inp := inp, mppt := { s.mppt with duty := d } } := by
  cases r <;> exact ⟨_, _, _, _, rfl⟩

end Sys2Proof.Machine
end

