-- ==== Sys2Proof/Laws/Float.lean ====
section
/-! SUPPORT. Binary64: packing, the exactness, monotonicity and nearness of the one rounding, and the order of the non-NaN values. -/

namespace Sys2Proof.Machine

theorem fMag_lt (x : F64) : fMag x < 2 ^ 63 := Nat.mod_lt _ (by decide)

theorem fMag_fPack {neg : Bool} {m : Nat} (h : m < 2 ^ 63) : fMag (fPack neg m) = m := by
  cases neg <;> simp [fMag, fPack, BitVec.toNat_ofNat] <;> omega

theorem fSignBit_fPack {neg : Bool} {m : Nat} (h : m < 2 ^ 63) : fSignBit (fPack neg m) = neg := by
  cases neg <;> simp [fSignBit, fPack, BitVec.toNat_ofNat] <;> omega

theorem fPack_fMag (x : F64) : fPack (fSignBit x) (fMag x) = x := by
  apply BitVec.eq_of_toNat_eq
  have := x.isLt
  simp only [fPack, fSignBit, fMag, BitVec.toNat_ofNat, decide_eq_true_eq]
  split <;> omega

theorem isNaN_false_of_isFinite {x : F64} (h : isFinite x = true) : isNaN x = false := by
  simp only [isFinite, isNaN, decide_eq_true_eq, decide_eq_false_iff_not] at *
  omega

theorem isInf_false_of_isFinite {x : F64} (h : isFinite x = true) : isInf x = false := by
  simp only [isFinite, isInf, decide_eq_true_eq, beq_eq_false_iff_ne] at *
  omega

/-! The division to the nearest, ties to even. -/

theorem divNearestEven_le {n d k : Nat} (hd : 0 < d) (h : n ≤ k * d) : divNearestEven n d ≤ k := by
  have hq : n / d ≤ k := (Nat.div_le_iff_le_mul_add_pred hd).2 (by rw [Nat.mul_comm]; omega)
  unfold divNearestEven
  rcases Nat.lt_or_eq_of_le hq with hlt | heq
  · split
    · omega
    · split
      · omega
      · split <;> omega
  · have hm : n % d = 0 := by
      have hdm := Nat.div_add_mod n d
      rw [heq, Nat.mul_comm] at hdm
      omega
    simp [hm, hd, heq]

theorem le_divNearestEven {n d k : Nat} (hd : 0 < d) (h : k * d ≤ n) : k ≤ divNearestEven n d := by
  have hq : k ≤ n / d := (Nat.le_div_iff_mul_le hd).2 h
  unfold divNearestEven
  split
  · exact hq
  · split
    · omega
    · split <;> omega

theorem divNearestEven_mul {k d : Nat} (hd : 0 < d) : divNearestEven (k * d) d = k :=
  Nat.le_antisymm (divNearestEven_le hd (Nat.le_refl _)) (le_divNearestEven hd (Nat.le_refl _))

/-- n / d is off by at most half of d. -/
theorem divNearestEven_half {n d : Nat} (hd : 0 < d) :
    2 * (divNearestEven n d * d) ≤ 2 * n + d ∧ 2 * n ≤ 2 * (divNearestEven n d * d) + d := by
  have hdm := Nat.div_add_mod n d
  have hlt := Nat.mod_lt n hd
  have e1 : n / d * d = d * (n / d) := Nat.mul_comm _ _
  have e2 : (n / d + 1) * d = d * (n / d) + d := by rw [Nat.add_mul, Nat.one_mul, e1]
  unfold divNearestEven
  split
  · rw [e1]; omega
  · split
    · rw [e2]; omega
    · split
      · rw [e1]; omega
      · rw [e2]; omega

theorem divNearestEven_mono {n n' d : Nat} (hd : 0 < d) (h : n ≤ n') : divNearestEven n d ≤ divNearestEven n' d := by
  by_contra hc
  have h1 := (divNearestEven_half (n := n) hd).1
  have h2 := (divNearestEven_half (n := n') hd).2
  have h3 : (divNearestEven n' d + 1) * d ≤ divNearestEven n d * d := Nat.mul_le_mul_right d (by omega)
  rw [Nat.add_mul, Nat.one_mul] at h3
  have he : n = n' := by omega
  subst he
  omega

/-- Where the division is a tie, the result is even. -/
theorem divNearestEven_even {n d : Nat} (hd : 0 < d)
    (h : 2 * (divNearestEven n d * d) = 2 * n + d ∨ 2 * n = 2 * (divNearestEven n d * d) + d) :
    divNearestEven n d % 2 = 0 := by
  have hdm := Nat.div_add_mod n d
  have hlt := Nat.mod_lt n hd
  have e1 : n / d * d = d * (n / d) := Nat.mul_comm _ _
  have e2 : (n / d + 1) * d = d * (n / d) + d := by rw [Nat.add_mul, Nat.one_mul, e1]
  revert h
  unfold divNearestEven
  split
  · rw [e1]; omega
  · split
    · rw [e2]; omega
    · split
      · intro _; assumption
      · intro _; omega

/-! The shift and the bounds it gives. -/

theorem lt_of_roundShift {n d : Nat} (hd : 0 < d) : n < 2 ^ 53 * (d * 2 ^ roundShift n d) := by
  have hlt : n / d < 2 ^ (roundShift n d + 53) := by
    have h1 : n / d < 2 ^ (Nat.log2 (n / d) + 1) := Nat.lt_log2_self
    exact Nat.lt_of_lt_of_le h1 (Nat.pow_le_pow_right (by decide) (by unfold roundShift; omega))
  have h2 : n < d * 2 ^ (roundShift n d + 53) := (Nat.div_lt_iff_lt_mul hd).1 hlt |>.trans_eq (Nat.mul_comm _ _)
  calc n < d * 2 ^ (roundShift n d + 53) := h2
    _ = 2 ^ 53 * (d * 2 ^ roundShift n d) := by rw [Nat.pow_add]; ring

theorem le_of_roundShift {n d : Nat} (hq : 0 < roundShift n d) : 2 ^ 52 * (d * 2 ^ roundShift n d) ≤ n := by
  have hne : n / d ≠ 0 := by
    intro h0
    simp [roundShift, h0] at hq
  have h1 : 2 ^ Nat.log2 (n / d) ≤ n / d := Nat.log2_self_le hne
  have h2 : Nat.log2 (n / d) = 52 + roundShift n d := by
    unfold roundShift at hq ⊢
    omega
  rw [h2, Nat.pow_add] at h1
  calc 2 ^ 52 * (d * 2 ^ roundShift n d) = d * (2 ^ 52 * 2 ^ roundShift n d) := by ring
    _ ≤ d * (n / d) := Nat.mul_le_mul_left d h1
    _ ≤ n := Nat.mul_div_le n d

theorem roundShift_mono {n n' d : Nat} (h : n ≤ n') : roundShift n d ≤ roundShift n' d := by
  unfold roundShift
  have hdiv : n / d ≤ n' / d := Nat.div_le_div_right h
  have : Nat.log2 (n / d) ≤ Nat.log2 (n' / d) := by
    by_cases h0 : n / d = 0
    · rw [h0, Nat.log2_zero]; exact Nat.zero_le _
    · exact (Nat.le_log2 (fun h' => h0 (Nat.le_zero.1 (h' ▸ hdiv)))).2 (Nat.le_trans (Nat.log2_self_le h0) hdiv)
  omega

/-- The significand before the overflow check lies in [2^52, 2^53], or is below where nothing is shifted off. -/
theorem roundSignificand_le {n d : Nat} (hd : 0 < d) :
    divNearestEven n (d * 2 ^ roundShift n d) ≤ 2 ^ 53 :=
  divNearestEven_le (Nat.mul_pos hd (Nat.two_pow_pos _)) (Nat.le_of_lt (lt_of_roundShift hd))

theorem le_roundSignificand {n d : Nat} (hd : 0 < d) (hq : 0 < roundShift n d) :
    2 ^ 52 ≤ divNearestEven n (d * 2 ^ roundShift n d) :=
  le_divNearestEven (Nat.mul_pos hd (Nat.two_pow_pos _)) (le_of_roundShift hq)

/-! The rounding itself. -/

theorem roundMag_le (n d : Nat) : roundMag n d ≤ infMag := by
  unfold roundMag
  exact Nat.min_le_left _ _

theorem roundMag_lt (n d : Nat) : roundMag n d < 2 ^ 63 := Nat.lt_of_le_of_lt (roundMag_le n d) (by decide)

/-- Rounding is monotone. -/
theorem roundMag_mono {n n' d : Nat} (hd : 0 < d) (h : n ≤ n') : roundMag n d ≤ roundMag n' d := by
  unfold roundMag
  apply min_le_min_left
  rcases Nat.lt_or_eq_of_le (roundShift_mono (d := d) h) with hlt | heq
  · have h1 := roundSignificand_le (n := n) hd
    have h2 := le_roundSignificand (n := n') hd (by omega)
    have : (roundShift n d + 1) * 2 ^ 52 ≤ roundShift n' d * 2 ^ 52 := Nat.mul_le_mul_right _ (by omega)
    omega
  · rw [← heq]
    exact Nat.add_le_add_left (divNearestEven_mono (Nat.mul_pos hd (Nat.two_pow_pos _)) h) _

/-- A number of units with a significand of at most 53 bits is the magnitude of its packed form. -/
theorem magUnits_pack {q m : Nat} (hm : m ≤ 2 ^ 53) (hq : q = 0 ∨ 2 ^ 52 ≤ m) : magUnits (q * 2 ^ 52 + m) = m * 2 ^ q := by
  unfold magUnits
  rcases Nat.lt_or_ge m (2 ^ 52) with h | h
  · have hq0 : q = 0 := by omega
    subst hq0
    have h1 : (0 * 2 ^ 52 + m) / 2 ^ 52 = 0 := by omega
    have h2 : (0 * 2 ^ 52 + m) % 2 ^ 52 = m := by omega
    rw [h1, h2, if_pos rfl, Nat.pow_zero, Nat.mul_one]
  · rcases Nat.lt_or_eq_of_le hm with h53 | h53
    · have h1 : (q * 2 ^ 52 + m) / 2 ^ 52 = q + 1 := by omega
      have h2 : (q * 2 ^ 52 + m) % 2 ^ 52 = m - 2 ^ 52 := by omega
      rw [h1, h2, if_neg (by omega), show 2 ^ 52 + (m - 2 ^ 52) = m by omega, Nat.add_sub_cancel]
    · have h1 : (q * 2 ^ 52 + m) / 2 ^ 52 = q + 2 := by omega
      have h2 : (q * 2 ^ 52 + m) % 2 ^ 52 = 0 := by omega
      rw [h1, h2, if_neg (by omega), h53, show q + 2 - 1 = q + 1 by omega, Nat.pow_succ]
      ring

/-- Every magnitude is a significand and a shift. -/
theorem magUnits_unpack (m : Nat) :
    ∃ q k, m = q * 2 ^ 52 + k ∧ k < 2 ^ 53 ∧ (q = 0 ∨ 2 ^ 52 ≤ k) ∧ magUnits m = k * 2 ^ q := by
  rcases Nat.eq_zero_or_pos (m / 2 ^ 52) with h | h
  · exact ⟨0, m, by omega, by omega, .inl rfl, by simpa using magUnits_pack (q := 0) (m := m) (by omega) (.inl rfl)⟩
  · refine ⟨m / 2 ^ 52 - 1, m % 2 ^ 52 + 2 ^ 52, by omega, by omega, .inr (by omega), ?_⟩
    have := magUnits_pack (q := m / 2 ^ 52 - 1) (m := m % 2 ^ 52 + 2 ^ 52) (by omega) (.inr (by omega))
    rwa [show (m / 2 ^ 52 - 1) * 2 ^ 52 + (m % 2 ^ 52 + 2 ^ 52) = m by omega] at this

/-- The value grows with the magnitude. -/
theorem magUnits_strictMono : StrictMono magUnits := by
  apply strictMono_nat_of_lt_succ
  intro m
  obtain ⟨q, k, hm, hk, hq, hu⟩ := magUnits_unpack m
  have hs : magUnits (m + 1) = (k + 1) * 2 ^ q := by
    rw [hm, Nat.add_assoc]
    exact magUnits_pack (by omega) (by omega)
  rw [hu, hs]
  exact Nat.mul_lt_mul_of_pos_right (by omega) (Nat.two_pow_pos _)

/-- A representable number rounds to itself. -/
theorem roundMag_exact {m d : Nat} (hd : 0 < d) (hm : m ≤ infMag) : roundMag (magUnits m * d) d = m := by
  obtain ⟨q, k, he, hk, hq, hu⟩ := magUnits_unpack m
  have hs : roundShift (magUnits m * d) d = q := by
    unfold roundShift
    rw [Nat.mul_div_cancel _ hd, hu]
    rcases hq with h0 | hk52
    · subst h0
      rcases Nat.eq_zero_or_pos k with h | h
      · simp [h]
      · have : (k * 2 ^ 0).log2 < 53 := (Nat.log2_lt (by simp; omega)).2 (by simpa using hk)
        omega
    · have : (k * 2 ^ q).log2 = 52 + q := by
        rw [Nat.log2_eq_iff (Nat.mul_ne_zero (by omega) (Nat.two_pow_pos q).ne')]
        constructor
        · rw [Nat.pow_add]
          exact Nat.mul_le_mul_right _ hk52
        · rw [show 52 + q + 1 = 53 + q by omega, Nat.pow_add]
          exact Nat.mul_lt_mul_of_pos_right hk (Nat.two_pow_pos _)
      omega
  unfold roundMag
  rw [hs, hu, show k * 2 ^ q * d = k * (d * 2 ^ q) by ring, divNearestEven_mul (Nat.mul_pos hd (Nat.two_pow_pos _)), ← he]
  exact Nat.min_eq_right hm

/-- The value of a finite result of the rounding. -/
theorem magUnits_roundMag {n d : Nat} (hd : 0 < d) (h : roundMag n d < infMag) :
    roundMag n d = roundShift n d * 2 ^ 52 + divNearestEven n (d * 2 ^ roundShift n d) ∧
    magUnits (roundMag n d) = divNearestEven n (d * 2 ^ roundShift n d) * 2 ^ roundShift n d := by
  have he : roundMag n d = roundShift n d * 2 ^ 52 + divNearestEven n (d * 2 ^ roundShift n d) := by
    unfold roundMag at h ⊢
    omega
  refine ⟨he, ?_⟩
  rw [he]
  refine magUnits_pack (roundSignificand_le hd) ?_
  rcases Nat.eq_zero_or_pos (roundShift n d) with h0 | h0
  · exact .inl h0
  · exact .inr (le_roundSignificand hd h0)

/-- A natural number of at most 53 bits is exact: it rounds to a magnitude that holds it (R171: PERn < 2^32 < 2^53). -/
theorem magUnits_roundMag_nat {n : Nat} (h : n < 2 ^ 53) :
    roundMag (n * 2 ^ 1074) 1 < infMag ∧ magUnits (roundMag (n * 2 ^ 1074) 1) = n * 2 ^ 1074 := by
  rcases Nat.eq_zero_or_pos n with rfl | hn
  · have := roundMag_exact (m := 0) (d := 1) (by decide) (by decide)
    rw [show magUnits 0 * 1 = 0 * 2 ^ 1074 by rw [Nat.zero_mul, Nat.mul_one]; decide] at this
    rw [this]
    exact ⟨by decide, by rw [Nat.zero_mul]; decide⟩
  · have hl : n.log2 < 53 := (Nat.log2_lt (by omega)).2 h
    have hlo : 2 ^ n.log2 ≤ n := Nat.log2_self_le (by omega)
    have hhi : n < 2 ^ (n.log2 + 1) := Nat.lt_log2_self
    have h52 : 2 ^ 52 ≤ n * 2 ^ (52 - n.log2) := by
      calc 2 ^ 52 = 2 ^ n.log2 * 2 ^ (52 - n.log2) := by rw [← Nat.pow_add]; congr 1; omega
        _ ≤ _ := Nat.mul_le_mul_right _ hlo
    have h53 : n * 2 ^ (52 - n.log2) < 2 ^ 53 := by
      calc _ < 2 ^ (n.log2 + 1) * 2 ^ (52 - n.log2) := Nat.mul_lt_mul_of_pos_right hhi (Nat.two_pow_pos _)
        _ = 2 ^ 53 := by rw [← Nat.pow_add]; congr 1; omega
    have hu := magUnits_pack (q := 1022 + n.log2) (Nat.le_of_lt h53) (.inr h52)
    rw [Nat.mul_assoc, ← Nat.pow_add, show 52 - n.log2 + (1022 + n.log2) = 1074 by omega] at hu
    have hm : (1022 + n.log2) * 2 ^ 52 + n * 2 ^ (52 - n.log2) < infMag := by
      unfold infMag
      omega
    have he := roundMag_exact (d := 1) (by decide) (Nat.le_of_lt hm)
    rw [hu, Nat.mul_one] at he
    rw [he]
    exact ⟨hm, hu⟩

/-- Below k and a half the rounding gives at most k. -/
theorem divNearestEven_le_of_lt_half {n d k : Nat} (h : 2 * n < (2 * k + 1) * d) : divNearestEven n d ≤ k := by
  have hd : 0 < d := Nat.pos_of_ne_zero fun h0 => by simp [h0] at h
  have hdm := Nat.div_add_mod n d
  have hle : n / d ≤ k := by
    rw [← Nat.lt_succ_iff, Nat.div_lt_iff_lt_mul hd]
    nlinarith
  rcases Nat.lt_or_eq_of_le hle with hlt | heq
  · unfold divNearestEven
    split_ifs <;> omega
  · have : 2 * (n % d) < d := by
      rw [heq] at hdm
      nlinarith
    unfold divNearestEven
    rw [if_pos this]
    exact hle

/-- The rounding stays finite exactly below half a unit above the largest binary64 (R11): 2^1024 - 2^970 in units of 2^-1074. -/
theorem roundMag_lt_infMag_iff {n d : Nat} (hd : 0 < d) : roundMag n d < infMag ↔ n < (2 ^ 54 - 1) * 2 ^ 2044 * d := by
  constructor
  · intro h
    by_contra hn
    have hm := roundMag_mono hd (Nat.le_of_not_lt hn)
    have hq : roundShift ((2 ^ 54 - 1) * 2 ^ 2044 * d) d = 2045 := by
      unfold roundShift
      rw [Nat.mul_div_cancel _ hd]
      decide +kernel
    have hs : divNearestEven ((2 ^ 54 - 1) * 2 ^ 2044 * d) (d * 2 ^ 2045) = 2 ^ 53 := by
      have e1 : (2 ^ 54 - 1) * 2 ^ 2044 * d = (d * 2 ^ 2044) * (2 ^ 54 - 1) := by ring
      have e2 : d * 2 ^ 2045 = (d * 2 ^ 2044) * 2 := by rw [Nat.mul_assoc, ← Nat.pow_succ]
      have hD : 0 < d * 2 ^ 2044 := Nat.mul_pos hd (Nat.two_pow_pos _)
      rw [e1, e2]
      generalize d * 2 ^ 2044 = D at hD
      unfold divNearestEven
      rw [Nat.mul_div_mul_left _ _ hD, Nat.mul_mod_mul_left]
      rw [if_neg (by omega), if_neg (by omega), if_neg (by decide)]
      decide
    have : roundMag ((2 ^ 54 - 1) * 2 ^ 2044 * d) d = infMag := by
      unfold roundMag
      rw [hq, hs]
      decide
    omega
  · intro h
    have hq : roundShift n d ≤ 2045 := by
      unfold roundShift
      have h1 : n / d < 2 ^ 2098 := by
        rw [Nat.div_lt_iff_lt_mul hd]
        exact Nat.lt_of_lt_of_le h (Nat.mul_le_mul_right _ (by decide +kernel))
      rcases Nat.eq_zero_or_pos (n / d) with h0 | h0
      · simp [h0]
      · have := (Nat.log2_lt (by omega)).2 h1
        omega
    have hs := roundSignificand_le (n := n) hd
    unfold roundMag infMag
    rcases Nat.lt_or_eq_of_le hq with hlt | heq
    · omega
    · have : divNearestEven n (d * 2 ^ roundShift n d) ≤ 2 ^ 53 - 1 := by
        refine divNearestEven_le_of_lt_half ?_
        rw [heq]
        calc 2 * n < 2 * ((2 ^ 54 - 1) * 2 ^ 2044 * d) := by omega
          _ = (2 * (2 ^ 53 - 1) + 1) * (d * 2 ^ 2045) := by
            rw [Nat.pow_succ' (n := 2044)]
            generalize (2 : Nat) ^ 2044 = P
            ring
      omega

/-- Every arithmetic result packs a sign and a magnitude that is at most that of an infinity. -/
theorem isNaN_fPack_roundMag (neg : Bool) (n d : Nat) : isNaN (fPack neg (roundMag n d)) = false := by
  simp only [isNaN, fMag_fPack (roundMag_lt n d), decide_eq_false_iff_not, Nat.not_lt]
  exact roundMag_le n d

theorem isNaN_fPack_zero (neg : Bool) : isNaN (fPack neg 0) = false := by cases neg <;> decide

/-- A finite sum is no NaN (R11): it is a number or, on overflow, an infinity. -/
theorem isNaN_fAdd {x y : F64} (hx : isFinite x = true) (hy : isFinite y = true) : isNaN (fAdd x y) = false := by
  simp only [fAdd, isNaN_false_of_isFinite hx, isNaN_false_of_isFinite hy, isInf_false_of_isFinite hx, isInf_false_of_isFinite hy,
    Bool.or_self, Bool.false_eq_true, if_false]
  split
  · exact isNaN_fPack_zero _
  · exact isNaN_fPack_roundMag _ _ _

theorem fMag_fNegate (x : F64) : fMag (fNegate x) = fMag x := by
  have hb : fNegate x = x ^^^ BitVec.twoPow 64 63 := by simp [fNegate, BitVec.twoPow]
  simp only [fMag, hb, BitVec.toNat_xor, BitVec.toNat_twoPow, Nat.xor_mod_two_pow]
  simp

theorem fSignBit_fNegate (x : F64) : fSignBit (fNegate x) = !fSignBit x := by
  have h : ∀ y : F64, fSignBit y = y.msb := fun y => by rw [fSignBit, BitVec.msb_eq_decide]
  rw [h, h, fNegate, BitVec.msb_xor, show (0x8000000000000000#64).msb = true by decide, Bool.xor_true]

theorem isFinite_fNegate (x : F64) : isFinite (fNegate x) = isFinite x := by simp only [isFinite, fMag_fNegate]

/-- Negation negates the exact value (R11). -/
theorem fValue_fNegate (x : F64) : fValue (fNegate x) = -fValue x := by
  simp only [fValue, signedUnits, units, fMag_fNegate, fSignBit_fNegate]
  cases fSignBit x <;> simp [neg_div]

/-- A finite difference is no NaN (R11). -/
theorem isNaN_fSub {x y : F64} (hx : isFinite x = true) (hy : isFinite y = true) : isNaN (fSub x y) = false :=
  isNaN_fAdd hx (by rw [isFinite_fNegate]; exact hy)

/-! The order of the non-NaN values. -/

theorem fLe_iff {x y : F64} (hx : isNaN x = false) (hy : isNaN y = false) : fLe x y = true ↔ fKey x ≤ fKey y := by
  simp [fLe, hx, hy]

theorem fLt_iff {x y : F64} (hx : isNaN x = false) (hy : isNaN y = false) : fLt x y = true ↔ fKey x < fKey y := by
  simp [fLt, hx, hy]

theorem fLe_refl {x : F64} (hx : isNaN x = false) : fLe x x = true := (fLe_iff hx hx).2 (Int.le_refl _)

/-- Of two values that are no NaN, one is less or the other is at most it. -/
theorem fLe_of_not_fLt {x y : F64} (hx : isNaN x = false) (hy : isNaN y = false) (h : fLt x y = false) : fLe y x = true := by
  rw [fLe_iff hy hx]
  have : ¬ fKey x < fKey y := by
    rw [← fLt_iff hx hy]
    simp [h]
  omega

theorem fLe_of_fLt {x y : F64} (h : fLt x y = true) : fLe x y = true := by
  simp only [fLt, fLe, Bool.and_eq_true, decide_eq_true_eq] at h ⊢
  exact ⟨h.1, Int.le_of_lt h.2⟩

end Sys2Proof.Machine
end

