-- ==== Sys2Proof/Laws/PerInstr.lean ====
section
/-! SUPPORT. What holds of every command as syntax, stated per constructor: its word is a legal command word. -/

namespace Sys2Proof.Laws.CommandWord

/-- The command is well formed, its word passes both checks of a command word (R92, R94), its OPCODE field is its opcode (R93) and its
RSV field is zero (R91). -/
def Statement (i : Instr) : Prop :=
  i.wf = true ∧ commandWordWf (encode i) = true ∧ opcodeField (encode i) = opcodeOf i ∧ rsvField (encode i) = 0

theorem nop : Statement .nop := by unfold Statement; decide
theorem pllInit : Statement .pllInit := by unfold Statement; decide
theorem mpptInit : Statement .mpptInit := by unfold Statement; decide
theorem mapInit : Statement .mapInit := by unfold Statement; decide
theorem pllUpdate : Statement .pllUpdate := by unfold Statement; decide
theorem mpptUpdate : Statement .mpptUpdate := by unfold Statement; decide
theorem mapUpdate : Statement .mapUpdate := by unfold Statement; decide
theorem cycle : Statement .cycle := by unfold Statement; decide
theorem run : Statement .run := by unfold Statement; decide

end Sys2Proof.Laws.CommandWord
end

