-- ==== Sys2Proof/Laws/Step.lean ====
section
/-! SUPPORT. What a command's transition and a step can do, said once: the inversion lemmas from which whole-machine claims follow. -/

namespace Sys2Proof.Machine

/-- The body that a command executes in EXEC; CYCLE and RUN have none there. -/
def bodyOf : Instr → State → State
  | .nop => id
  | .pllInit => pllInitBody
  | .mpptInit => mpptInitBody
  | .mapInit => mapInitBody
  | .pllUpdate => pllUpdateBody
  | .mpptUpdate => mpptUpdateBody
  | .mapUpdate => mapUpdateBody
  | .cycle => id
  | .run => id

theorem exec_idle {s : State} (i : Instr) (h : s.seq = .idle) : exec i s = .next (accept i s) := by
  cases i <;> simp [exec, execNop, execPllInit, execMpptInit, execMapInit, execPllUpdate, execMpptUpdate, execMapUpdate, execCycle,
    execRun, runInExec, h]

theorem exec_exec {s : State} {i : Instr} (h : s.seq = .exec) (hc : i ≠ .cycle) (hr : i ≠ .run) :
    exec i s = .next (complete (bodyOf i s)) := by
  cases i <;> first
    | exact absurd rfl hc
    | exact absurd rfl hr
    | simp [exec, execNop, execPllInit, execMpptInit, execMapInit, execPllUpdate, execMpptUpdate, execMapUpdate, runInExec, h, bodyOf]

theorem exec_acqGrid {s : State} {i : Instr} (h : s.seq = .acqGrid) (hi : i = .cycle ∨ i = .run) :
    exec i s = .next (acquireGrid s) := by
  obtain rfl | rfl := hi <;> simp [exec, execCycle, execRun, h]

theorem exec_acqPv {s : State} {i : Instr} (h : s.seq = .acqPv) (hi : i = .cycle ∨ i = .run) :
    exec i s = .next (acquirePv s) := by
  obtain rfl | rfl := hi <;> simp [exec, execCycle, execRun, h]

theorem exec_compute {s : State} {i : Instr} (h : s.seq = .compute) (hi : i = .cycle ∨ i = .run) :
    exec i s = .next (endCompute (computeBody s)) := by
  obtain rfl | rfl := hi <;> simp [exec, execCycle, execRun, h]

theorem exec_waitTick {s : State} (h : s.seq = .waitTick) : exec .run s = .next (leaveWaitTick s) := by
  simp [exec, execRun, h]

/-- Everything a command's transition can do (R188). -/
theorem exec_cases {i : Instr} {s t : State} (h : exec i s = .next t) :
    (s.seq = .idle ∧ t = accept i s) ∨
    (s.seq = .exec ∧ i ≠ .cycle ∧ i ≠ .run ∧ t = complete (bodyOf i s)) ∨
    (s.seq = .acqGrid ∧ (i = .cycle ∨ i = .run) ∧ t = acquireGrid s) ∨
    (s.seq = .acqPv ∧ (i = .cycle ∨ i = .run) ∧ t = acquirePv s) ∨
    (s.seq = .compute ∧ (i = .cycle ∨ i = .run) ∧ t = endCompute (computeBody s)) ∨
    (s.seq = .waitTick ∧ i = .run ∧ t = leaveWaitTick s) := by
  rcases hs : s.seq <;> cases i <;>
    simp [exec, execNop, execPllInit, execMpptInit, execMapInit, execPllUpdate, execMpptUpdate, execMapUpdate, execCycle, execRun,
      runInExec, bodyOf, hs] at h ⊢ <;> exact h.symm

/-- The core's own step runs the pending command, or it waits. -/
theorem coreStep_cases {s t : State} (h : coreStep s = .next t) :
    t = s ∨ ∃ i, s.pending = some i ∧ exec i s = .next t := by
  unfold coreStep at h
  split at h
  · right
    unfold runPending at h
    split at h
    · exact ⟨_, ‹_›, h⟩
    · cases h
  · left
    simpa using h.symm

/-- A host write is an issued command's acceptance, or the bus write alone. -/
theorem hostWrite_cases {a : Offset} {n : Nat} {v : Word} {s t : State} (h : hostWrite a n v s = .next t) :
    (∃ i, writeAction a n v s = .issue i ∧ exec i (busWrite (.issue i) a n v s) = .next t) ∨
    (t = busWrite (writeAction a n v s) a n v s ∧ ∀ i, writeAction a n v s ≠ .issue i) := by
  unfold hostWrite at h
  split at h
  · exact .inl ⟨_, ‹_›, h⟩
  all_goals
    rename_i hw
    right
    simp only [Host.Outcome.next.injEq] at h
    exact ⟨by rw [hw, h], by rw [hw]; intro i; simp⟩

/-- Everything a step can do: wait or drop a move, run the pending command on the state or on the state with its move taken, accept an
issued command, a bus transaction, a tick, or reset. -/
theorem step_cases {s t : State} (h : step s = .next t) :
    t = s ∨ t = s.pop ∨
    (∃ i, s.pending = some i ∧ (exec i s = .next t ∨ exec i s.pop = .next t)) ∨
    (∃ a n v i rest, s.agenda = .write a n v :: rest ∧ writeAction a n v s.pop = .issue i ∧
      exec i (busWrite (.issue i) a n v s.pop) = .next t) ∨
    (∃ a n v rest, s.agenda = .write a n v :: rest ∧ t = busWrite (writeAction a n v s.pop) a n v s.pop ∧
      ∀ i, writeAction a n v s.pop ≠ .issue i) ∨
    (∃ a n rest, s.agenda = .read a n :: rest ∧ t = busRead a n s.pop) ∨
    (∃ a m w rest, s.agenda = .poll a m w :: rest ∧ t = pollRead a m w s.pop) ∨
    (∃ rest, s.agenda = .tick :: rest ∧ t = takeTick s.pop) ∨
    (∃ rest, s.agenda = .reset :: rest ∧ t = resetMachine s.pop) := by
  have hrun : ∀ u : State, runPending u = .next t → ∃ i, u.pending = some i ∧ exec i u = .next t := by
    intro u hu
    unfold runPending at hu
    split at hu
    · exact ⟨_, ‹_›, hu⟩
    · cases hu
  unfold step at h
  split at h
  · obtain h | ⟨i, hp, he⟩ := coreStep_cases h
    · exact .inl h
    · exact .inr (.inr (.inl ⟨i, hp, .inl he⟩))
  · obtain h | ⟨i, hp, he⟩ := coreStep_cases h
    · exact .inr (.inl h)
    · exact .inr (.inr (.inl ⟨i, hp, .inr he⟩))
  · rename_i a n rest ha
    simp only [Host.Outcome.next.injEq] at h
    exact .inr (.inr (.inr (.inr (.inr (.inl ⟨a, n, rest, ha, h.symm⟩)))))
  · rename_i a n v rest ha
    obtain ⟨i, hw, he⟩ | ⟨ht, hn⟩ := hostWrite_cases h
    · exact .inr (.inr (.inr (.inl ⟨a, n, v, i, rest, ha, hw, he⟩)))
    · exact .inr (.inr (.inr (.inr (.inl ⟨a, n, v, rest, ha, ht, hn⟩))))
  · rename_i a m w rest ha
    simp only [Host.Outcome.next.injEq] at h
    exact .inr (.inr (.inr (.inr (.inr (.inr (.inl ⟨a, m, w, rest, ha, h.symm⟩))))))
  · split at h
    · obtain ⟨i, hp, he⟩ := hrun s h
      exact .inr (.inr (.inl ⟨i, hp, .inl he⟩))
    · simp only [Host.Outcome.next.injEq] at h
      exact .inr (.inl h.symm)
  · split at h
    · obtain ⟨i, hp, he⟩ := hrun s h
      exact .inr (.inr (.inl ⟨i, hp, .inl he⟩))
    · simp only [Host.Outcome.next.injEq] at h
      exact .inr (.inl h.symm)
  · rename_i rest ha
    simp only [Host.Outcome.next.injEq] at h
    exact .inr (.inr (.inr (.inr (.inr (.inr (.inr (.inl ⟨rest, ha, h.symm⟩)))))))
  · rename_i rest ha
    simp only [Host.Outcome.next.injEq] at h
    exact .inr (.inr (.inr (.inr (.inr (.inr (.inr (.inr ⟨rest, ha, h.symm⟩)))))))

end Sys2Proof.Machine
end

