-- ==== Sys2Proof/Tests/Slice0.lean ====
section
/-! SUPPORT. Small tests with expected values from 95_test_vectors.md, and a witness of the hypotheses of every obligation that has some. -/

namespace Sys2Proof.Tests

open Sys2Proof.Machine

/-! Well-formedness and decoding. -/

/-- The RSV check refuses 0x109 (vector B6), whose opcode field is legal but for it, and the word with only bit 63 beside PLL_UPDATE. -/
theorem test_rsv_refused : rsvClear 0x109#64 = false ∧ rsvClear 0x8000000000000004#64 = false ∧ commandWordWf 0x8000000000000004#64 = false := by
  decide

/-- The opcode check refuses 0x09 and 0xFF (vectors B7, B8) and takes 0x08. -/
theorem test_opcode_refused : opcodeLegal 0x09#64 = false ∧ opcodeLegal 0xFF#64 = false ∧ opcodeLegal 0x08#64 = true := by decide

/-- The nine words of the opcode map (R93). -/
theorem test_decode_words :
    decodeWord 0x0000000000000000#64 = .ok .nop ∧ decodeWord 0x0000000000000001#64 = .ok .pllInit ∧
    decodeWord 0x0000000000000002#64 = .ok .mpptInit ∧ decodeWord 0x0000000000000003#64 = .ok .mapInit ∧
    decodeWord 0x0000000000000004#64 = .ok .pllUpdate ∧ decodeWord 0x0000000000000005#64 = .ok .mpptUpdate ∧
    decodeWord 0x0000000000000006#64 = .ok .mapUpdate ∧ decodeWord 0x0000000000000007#64 = .ok .cycle ∧
    decodeWord 0x0000000000000008#64 = .ok .run := ⟨rfl, rfl, rfl, rfl, rfl, rfl, rfl, rfl, rfl⟩

/-- Rejected words (R92, R94): the RSV check comes first. -/
theorem test_decode_rejects :
    decodeWord 0x109#64 = .error .reserved ∧ decodeWord 0x8000000000000004#64 = .error .reserved ∧
    decodeWord 0x09#64 = .error .illegal ∧ decodeWord 0xFF#64 = .error .illegal := ⟨rfl, rfl, rfl, rfl⟩

/-- PLL_UPDATE in bus order: the least significant lane first (R73). -/
theorem test_decode_bytes :
    decode [0x04, 0, 0, 0, 0, 0, 0, 0, 0xAA] = .ok (.pllUpdate, [0xAA]) ∧ decode [0, 0, 0, 0, 0, 0, 0, 0x04] = .error .reserved ∧
    decode [0x04, 0, 0, 0] = .error .truncated := ⟨rfl, rfl, rfl⟩

theorem test_decode_table : decodeTableWord 64 0x07 = some .cycle ∧ decodeTableWord 64 0x09 = none := by decide

/-! Binary64 (R11, R12). -/

/-- The decimal literals of the rules are the nearest binary64 values. -/
theorem test_literals :
    fOfRatio false 50 1 = 0x4049000000000000#64 ∧ fOfRatio false 2 100000 = 0x3EF4F8B588E368F1#64 ∧
    fOfRatio false 5 1000 = 0x3F747AE147AE147B#64 ∧ fOfRatio false 5 100 = 0x3FA999999999999A#64 ∧
    fOfRatio false 95 100 = 0x3FEE666666666666#64 := by decide +kernel

/-- 0.94 + 0.005 and 0.945 + 0.005 (S4), 10.2 * 0.9 (M2), and 1 / ((x + y) + 4) of section 2.1. -/
theorem test_arithmetic :
    fAdd 0x3FEE147AE147AE14#64 0x3F747AE147AE147B#64 = 0x3FEE3D70A3D70A3D#64 ∧
    fAdd 0x3FEE3D70A3D70A3D#64 0x3F747AE147AE147B#64 = 0x3FEE666666666666#64 ∧
    fMul 0x4024666666666666#64 0x3FECCCCCCCCCCCCD#64 = 0x40225C28F5C28F5C#64 ∧
    fDiv fOne (fAdd (fAdd 0x3F79BC65B68B71C3#64 0x3F04B2B4199E149B#64) fFour) = 0x3FCFF31255B29453#64 := by decide +kernel

/-- Line 1 of program P4 and R21: 1000 in PERIOD_TICKS is the integer, 50.0 in F_NOM the binary64; P3 line 19: 5 at the unmapped 0x0D8. -/
theorem test_script_literals :
    scriptLiteral .periodTicks false 1000 1 = 0x3E8 ∧ scriptLiteral .fNom false 50 1 = 0x4049000000000000#64 ∧
    scriptLiteralAt 0x0D8 false 5 1 = 5 := by decide +kernel

/-- Program P1, line 7: (R, 0x100, 0x4049321C94D16ABD); P4, line 3: cmd CYCLE is (W, 0x008, 0x07). -/
theorem test_bus_triples :
    busTriple (scriptRd .pllFreq) { State.reset with pll := { State.reset.pll with freq := 0x4049321C94D16ABD#64 } }
      = some (false, 0x100, 0x4049321C94D16ABD#64) ∧
    busTriple (scriptCmd .cycle) State.reset = some (true, 0x008, 0x07) := by decide

/-- Program P3, lines 1 and 2: the history of (R, 0x004, 0) and (R, 0x018, 0x401) after reset. -/
theorem test_bus_triples_of_history :
    busTriples (busRead 0x018 8 (busRead 0x004 8 State.reset)).history = [(false, 0x004, 0), (false, 0x018, 0x401)] := by decide

/-! The commands. -/

/-- A field of the next state passes a check; false of a fault or a refusal. -/
def after (o : Host.Outcome State Fault Refusal) (f : State → Bool) : Bool :=
  match o with
  | .next t => f t
  | _ => false

/-- The reset state with a command about to execute. -/
def executing (i : Instr) : State := { State.reset with seq := .exec, pending := some i, busy := true }

/-- As executing, with PREV_V = PREV_P = 10.0, the given duty, V and I: the setting of the vectors M1 to M18. -/
def mpptAt (duty v c : F64) : State :=
  { executing .mpptUpdate with
    mppt := { prevV := 0x4024000000000000#64, prevP := 0x4024000000000000#64, duty := duty }
    inp := { sampleIn := 0, pvV := v, pvI := c } }

/-- As executing, with a period and a duty: the setting of the vectors K1 to K18. -/
def mapAt (per : U32) (duty : F64) : State :=
  { executing .mapUpdate with mapSnap := { per := per, dt := 0 }, mppt := { prevV := 0, prevP := 0, duty := duty } }

theorem test_nop : exec .nop (executing .nop) = .next State.reset := rfl

/-- The coefficients of PC-2, K = 1.0. -/
theorem test_pll_init :
    after (exec .pllInit { executing .pllInit with cfg := { State.reset.cfg with k := fOne } }) (fun t =>
      t.coef == { b0 := 0x3F69A7B30FCA566C#64, b2 := 0xBF69A7B30FCA566C#64, a1 := 0x3FFFE62F08D2DDB6#64, a2 := 0xBFEFCCB099E06B53#64,
                  qb0 := 0x3ED4A20EABF99827#64, qb1 := 0x3EE4A20EABF99827#64, qb2 := 0x3ED4A20EABF99827#64 }
        && t.pll.cos == fOne && !t.sticky.nonfinite) = true := by decide +kernel

/-- PC-5, F_NOM = NaN: B2 is the negated NaN, and NONFINITE is set. -/
theorem test_pll_init_nan :
    after (exec .pllInit { executing .pllInit with cfg := { State.reset.cfg with fNom := fNaN } }) (fun t =>
      t.coef.b0 == 0x7FF8000000000000#64 && t.coef.b2 == 0xFFF8000000000000#64 && t.sticky.nonfinite) = true := by decide +kernel

/-- Section 2.2, update 1. -/
theorem test_pll_update_a :
    after (exec .pllUpdate { executing .pllUpdate with inp := { sampleIn := fOne, pvV := 0, pvI := 0 } }) (fun t =>
      t.pll.ip0 == 0x3F59B1FFEC1E8D38#64 && t.pll.qd0 == 0x3ED4AA575C672B2A#64 && t.pll.qerr == 0x3F59B1FFEC1E8D38#64
        && t.pll.derr == 0x3ED4AA575C672B2A#64 && t.pll.freq == 0x4049000000000000#64 && t.pll.angle == 0x3F79BC65B68B71C3#64
        && !t.sticky.angleRange) = true := by decide +kernel

/-- Strategy B, the first sample of section 2.4: KP = 2.0, KI = 100.0, QSCALE = 0.5. -/
theorem test_pll_update_b :
    after (exec .pllUpdate { executing .pllUpdate with
        active := 1, inp := { sampleIn := fOne, pvV := 0, pvI := 0 }
        pllSnap := { State.reset.pllSnap with kp := fTwo, ki := 0x4059000000000000#64, qs := fHalf } }) (fun t =>
      t.pll.ip0 == fOne && t.pll.qd0 == fHalf && t.pll.qerr == fOne && t.pll.derr == fHalf && t.pll.integ == 0x3F60624DD2F1A9FC#64
        && t.pll.lf0 == 0x400004189374BC6A#64 && t.pll.freq == 0x404A004189374BC7#64 && t.pll.angle == 0x3F7AC4325DE50EA3#64) = true := by
  decide +kernel

theorem test_mppt_init :
    after (exec .mpptInit { executing .mpptInit with ctrl := 2, mppt := { prevV := 1, prevP := 2, duty := 3 } }) (fun t =>
      t.active == 2 && t.mppt == { prevV := 0, prevP := 0, duty := 0 } && t.mpptSnap.delta == 0x3F747AE147AE147B#64) = true := by decide

/-- M3: power rises, voltage falls, the duty steps down. -/
theorem test_mppt_update_m3 :
    after (exec .mpptUpdate (mpptAt fHalf 0x402399999999999A#64 0x3FF199999999999A#64)) (fun t =>
      t.mppt == { prevV := 0x402399999999999A#64, prevP := 0x40258F5C28F5C290#64, duty := 0x3FDFAE147AE147AE#64 }) = true := by decide +kernel

/-- M10: the clamp at DUTY_MAX. -/
theorem test_mppt_update_m10 :
    after (exec .mpptUpdate (mpptAt 0x3FEE666666666666#64 0x4024666666666666#64 fOne)) (fun t =>
      t.mppt.duty == 0x3FEE666666666666#64 && t.sticky.dutySatHi && !t.sticky.dutySatLo) = true := by decide +kernel

/-- R170's example: ActConfig(1000, 20) and MAP_ON_TICKS = 0. -/
theorem test_map_init :
    after (exec .mapInit { executing .mapInit with mapOnTicks := 7, cfg := { State.reset.cfg with periodTicks := 1000, deadTime := 20 } })
      (fun t => t.mapOnTicks == 0 && t.history == [.reset, .actConfig 1000 20] && t.mapSnap == { per := 1000, dt := 20 }) = true := by decide

/-- K3: 1.5 rounds to 2, half away from zero. -/
theorem test_map_update_k3 :
    after (exec .mapUpdate (mapAt 3 fHalf)) (fun t => t.mapOnTicks == 2 && !t.sticky.mapSat && t.history == [.reset, .setDuty 2]) = true := by
  decide +kernel

/-- K17: -250.0 saturates to 0. -/
theorem test_map_update_k17 :
    after (exec .mapUpdate (mapAt 1000 0xBFD0000000000000#64)) (fun t => t.mapOnTicks == 0 && t.sticky.mapSat) = true := by decide +kernel

/-- The compute step of program P4: PERn = 1000, sample 1.0, PV pair (10.0, 1.0). -/
theorem test_cycle :
    after (exec .cycle { State.reset with
        seq := .compute, pending := some .cycle, busy := true, mapSnap := { per := 1000, dt := 0 }
        inp := { sampleIn := fOne, pvV := 0x4024000000000000#64, pvI := fOne } }) (fun t =>
      t.mppt.duty == 0x3FA999999999999A#64 && t.mapOnTicks == 50 && t.seq == .idle && t.history == [.reset, .setDuty 50]
        && t.pll.qd0 == 0x3ED4AA575C672B2A#64) = true := by decide +kernel

/-- Q8: RUN leaves WAIT_TICK at once with a pending tick, and Q5: it is accepted with STATUS = 0x0B. -/
theorem test_run :
    after (exec .run { State.reset with seq := .waitTick, mode := .loop, running := true, busy := true, tickPending := true }) (fun t =>
      t.seq == .acqGrid && !t.tickPending) = true ∧
    after (exec .run State.reset) (fun t => statusWord t == 0x0B) = true := by decide

/-! The bus. -/

/-- One step of the reset state with a move. -/
def stepWith (m : Move) : Host.Outcome State Fault Refusal := step (State.reset.push m)

/-- B2, B6, B9 and R217: ERR_CAUSE as read after the refused access. -/
theorem test_bus_errors :
    after (stepWith (.read 0x010 4)) (fun t => errCauseWord t.errCause == 0x1001) = true ∧
    after (stepWith (.write 0x008 8 0x109)) (fun t => errCauseWord t.errCause == 0x40805 && statusWord t == 0x100) = true ∧
    after (stepWith (.write 0x0D8 8 5)) (fun t => errCauseWord t.errCause == 0x4D802) = true ∧
    after (stepWith (.write 0x100 8 0)) (fun t => errCauseWord t.errCause == 0x50003) = true ∧
    after (stepWith (.write 0x210 8 0x3FF8000000000000)) (fun t => errCauseWord t.errCause == 0x61007 && t.mppt.duty == 0) = true := by
  decide

/-- R202: a misaligned write to 0x00C is BUS_ALIGN; a bad word to CMD while BUSY is BUSY. -/
theorem test_bus_priority :
    after (stepWith (.write 0x00C 8 0)) (fun t => errCauseWord t.errCause == 0x40C01) = true ∧
    after (step ((executing .nop).push (.write 0x008 8 0x109))) (fun t => errCauseWord t.errCause == 0x40804) = true := by decide

/-- B15: CTRL keeps two bits; B11: MPPT_DUTY takes 1.0. -/
theorem test_bus_store :
    after (stepWith (.write 0x000 8 0xFFFFFFFFFFFFFFFF)) (fun t => readReg .ctrl t == 3 && t.active == 0) = true ∧
    after (stepWith (.write 0x210 8 0x3FF0000000000000)) (fun t => t.mppt.duty == 0x3FF0000000000000) = true := by decide

/-- The first command after reset: withFetchWord's step accepts it. -/
theorem test_fetch : after (step (State.reset.withFetchWord 64 0x04)) (fun t => t.seq == .exec && t.pending == some .pllUpdate) = true := by
  decide

/-- Line 6 of program P3: clear_status. -/
theorem test_clear_status :
    clearStatus 0x1F0300#64 { State.reset with
      sticky := { err := true, errMulti := true, dutySatHi := true, dutySatLo := true, angleRange := true, nonfinite := true, mapSat := true }
      errCause := some { cause := .busAlign, offset := 4, wr := false } } = State.reset := by decide

/-! Witnesses: states, operands and words that meet the hypotheses of the obligations, clause by clause. Each is named for its obligation. -/

/-- RUN in WAIT_TICK with a tick latched. -/
def looping : State :=
  { State.reset with seq := .waitTick, mode := .loop, running := true, busy := true, pending := some .run, tickPending := true }

/-- CYCLE in its compute step. -/
def computing : State := { State.reset with seq := .compute, pending := some .cycle, busy := true }

theorem looping_inv : MachineInv looping := by constructor <;> decide

theorem computing_inv : MachineInv computing := by constructor <;> decide

theorem executing_inv : MachineInv (executing .pllUpdate) ∧ MachineInv (executing .pllInit) ∧ MachineInv (executing .mpptInit) ∧
    MachineInv (executing .mapInit) := ⟨by constructor <;> decide, by constructor <;> decide, by constructor <;> decide, by constructor <;> decide⟩

theorem witness_StepKeepsInvariant : ∃ t, MachineInv looping ∧ step looping = .next t := ⟨_, looping_inv, rfl⟩

theorem witness_StepNeverStops : MachineInv (executing .pllUpdate) := executing_inv.1

theorem witness_RunIsLeftOnlyByReset :
    ∃ t, MachineInv looping ∧ looping.running = true ∧ resetNext looping = false ∧ step looping = .next t ∧ t.seq = .acqGrid :=
  ⟨_, looping_inv, rfl, rfl, rfl, rfl⟩

theorem witness_HistoryOnlyGrows :
    ∃ t, MachineInv (executing .mapInit) ∧ step (executing .mapInit) = .next t ∧ t.history = [.reset, .actConfig 0 0] :=
  ⟨_, executing_inv.2.2.2, rfl, rfl⟩

/-- All sticky bits set: a tick leaves them, a STATUS write of bit 9 alone clears ERR_MULTI alone. -/
def flagged (m : Move) : State :=
  { State.reset with
    sticky := { err := true, errMulti := true, dutySatHi := true, dutySatLo := true, angleRange := true, nonfinite := true, mapSat := true }
    errCause := some { cause := .busAlign, offset := 4, wr := false }
    agenda := [m] }

theorem witness_StickyBitsSurvive :
    (∃ t, resetNext (flagged .tick) = false ∧ step (flagged .tick) = .next t ∧ statusWriteNext (flagged .tick) = false ∧
      (flagged .tick).sticky.mapSat = true) ∧
    (∃ t, resetNext (flagged (.write 0x010 8 0x200)) = false ∧ step (flagged (.write 0x010 8 0x200)) = .next t ∧
      statusWriteNext (flagged (.write 0x010 8 0x200)) = true ∧ t.sticky.err = true ∧ t.sticky.errMulti = false) :=
  ⟨⟨_, rfl, rfl, rfl, rfl⟩, ⟨_, rfl, rfl, rfl, rfl, rfl⟩⟩

theorem witness_SnapshotsChangeOnlyAtInit :
    (∃ t, MachineInv (executing .pllInit) ∧ resetNext (executing .pllInit) = false ∧ step (executing .pllInit) = .next t ∧
      coreNext (executing .pllInit) = true) ∧
    (∃ t, MachineInv (executing .mpptInit) ∧ resetNext (executing .mpptInit) = false ∧ step (executing .mpptInit) = .next t) ∧
    (∃ t, MachineInv (executing .mapInit) ∧ resetNext (executing .mapInit) = false ∧ step (executing .mapInit) = .next t) ∧
    (∃ t, MachineInv ((executing .pllInit).push .tick) ∧ resetNext ((executing .pllInit).push .tick) = false ∧
      step ((executing .pllInit).push .tick) = .next t ∧ coreNext ((executing .pllInit).push .tick) = false) :=
  ⟨⟨_, executing_inv.2.1, rfl, rfl, rfl⟩, ⟨_, executing_inv.2.2.1, rfl, rfl⟩, ⟨_, executing_inv.2.2.2, rfl, rfl⟩,
    ⟨_, by constructor <;> decide, rfl, rfl, rfl⟩⟩

/-- FREQ goes from 0.0 to 50.0. -/
theorem witness_PllStateWrittenOnlyByPllSteps :
    (∃ t, MachineInv (executing .pllUpdate) ∧ resetNext (executing .pllUpdate) = false ∧ step (executing .pllUpdate) = .next t ∧
      t.pll ≠ (executing .pllUpdate).pll) ∧
    (∃ t, MachineInv computing ∧ resetNext computing = false ∧ step computing = .next t ∧ t.pll ≠ computing.pll) :=
  ⟨⟨_, executing_inv.1, rfl, rfl, fun h => absurd (congrArg PllRegs.freq h) (by decide +kernel)⟩,
    ⟨_, computing_inv, rfl, rfl, fun h => absurd (congrArg PllRegs.freq h) (by decide +kernel)⟩⟩

theorem witness_BusyWritesChangeNoRegister :
    (∃ t, (executing .nop).busy = true ∧ step ((executing .nop).push (.write 0x040 8 1)) = .next t ∧ t.sticky.err = true) ∧
    (∃ t, (flagged .tick).busy = false ∧ step ({ flagged .tick with busy := true, agenda := [.write 0x010 8 0x100] }) = .next t ∧
      t.sticky.err = false) :=
  ⟨⟨_, rfl, rfl, rfl⟩, ⟨_, rfl, rfl, rfl⟩⟩

/-- MAP_UPDATE sets MAP_SAT and appends an event (the vector K17). -/
theorem witness_FlagsAreNeverRead :
    ∃ t, exec .mapUpdate (mapAt 1000 0xBFD0000000000000#64) = .next t ∧ t.sticky.mapSat = true ∧ t.history = [.reset, .setDuty 0] :=
  ⟨_, rfl, by decide +kernel, by decide +kernel⟩

theorem witness_UpdatesReadNoConfiguration :
    Instr.cycle ∈ [Instr.pllUpdate, .mpptUpdate, .mapUpdate, .cycle, .run] ∧ ∃ t, exec .cycle computing = .next t :=
  ⟨by decide, _, rfl⟩

/-- The premise of every statement about a command in EXEC, both strategies and both policies among its states. -/
theorem witness_exec : (executing .nop).seq = .exec ∧ (executing .pllUpdate).active.getLsbD 0 = false ∧
    ({ executing .pllUpdate with active := 1 }).active.getLsbD 0 = true ∧ (executing .mpptUpdate).active.getLsbD 1 = false ∧
    ({ executing .mpptUpdate with active := 2 }).active.getLsbD 1 = true := by decide

theorem witness_PllAndMpptUpdatesCommute : (executing .pllUpdate).seq = .exec := rfl

theorem witness_CommandWordHasOneMeaning : Instr.wf .run = true ∧ decodeWord 8 = .ok .run ∧ (8 : Word) = encode .run := ⟨rfl, rfl, rfl⟩

theorem witness_BadWordsRejectedByName :
    256 ≤ (0x100 : Word).toNat ∧ (8 < (0x009 : Word).toNat ∧ (0x009 : Word).toNat < 256) ∧
    (8 < (0x0FF : Word).toNat ∧ (0x0FF : Word).toNat < 256) ∧ (0x008 : Word).toNat ≤ 8 := by decide

theorem witness_StepRunsTheCommand :
    ((State.reset.push (.write 0x008#10 8 8)).agenda = [.write 0x008#10 8 8] ∧ State.reset.busy = false ∧ decodeWord 8 = .ok .run ∧
      Instr.wf .run = true) ∧
    (looping.agenda = [] ∧ looping.pending = some .run ∧ looping.seq = .waitTick ∧ looping.tickPending = true) ∧
    ((looping.push .core).agenda = [.core] ∧ (computing.push .core).seq = .compute) ∧
    (State.reset.agenda = [] ∧ State.reset.seq = .idle) ∧
    ({ looping with tickPending := false, agenda := [.core] }).tickPending = false ∧
    (({ computing with seq := .acqGrid, agenda := [.grid 1] }).seq = .acqGrid ∧ computing.pending = some .cycle) ∧
    ({ computing with seq := .acqPv, agenda := [.pv 1 2] }).seq = .acqPv ∧
    ((looping.push (.grid 1)).agenda = [.grid 1] ∧ (looping.push (.grid 1)).seq ≠ .acqGrid) ∧
    (({ computing with seq := .acqGrid, agenda := [.pv 1 2] }).agenda = [.pv 1 2] ∧ ({ computing with seq := .acqGrid }).seq ≠ .acqPv) := by decide

theorem witness_FetchWordIsTheNextCommand :
    State.reset.busy = false ∧ decodeTableWord 64 8 = some .run ∧ decodeTableWord 64 0 = some .nop := by decide

theorem witness_AcceptanceOfEachCommand :
    State.reset.seq = .idle ∧ Instr.mapUpdate ∈ [Instr.nop, .pllInit, .mpptInit, .mapInit, .pllUpdate, .mpptUpdate, .mapUpdate] := by decide

theorem witness_FirstErrorIsKept :
    State.reset.sticky.err = false ∧ (flagged .tick).sticky.err = true ∧ (0x100 : Word).getLsbD 8 = true ∧
    ((0x200 : Word).getLsbD 9 = true ∧ (0x200 : Word).getLsbD 8 = false) ∧
    ((0xFFFFFFFFFFFFFEFF : Word).getLsbD 9 = true ∧ (0xFFFFFFFFFFFFFEFF : Word).getLsbD 8 = false) := by decide

/-- The last lane below a register, a narrow access, the lowest and highest unmapped offsets, and the first and last registers. -/
theorem witness_BusReadReturns :
    ((State.reset.push (.read 0x007 8)).agenda = [.read 0x007 8] ∧ (0x007 : Offset).toNat % 8 ≠ 0) ∧ (4 : Nat) ≠ 8 ∧
    ((0x030 : Offset).toNat % 8 = 0 ∧ ∀ r ∈ Reg.all, r.offset ≠ 0x030) ∧ ((0x3F8 : Offset).toNat % 8 = 0 ∧ ∀ r ∈ Reg.all, r.offset ≠ 0x3F8) ∧
    Reg.ctrl.offset = 0x000 ∧ Reg.mapOnTicks.offset = 0x240 ∧ Reg.cmd.offset = 0x008 := by decide

/-- One register of each kind of access, both sides of BUSY, and the words and duties on both sides of each check. -/
theorem witness_BusWriteChecksInOrder :
    (0x00C : Offset).toNat % 8 ≠ 0 ∧ (∀ r ∈ Reg.all, r.offset ≠ 0x0D8) ∧ Reg.coefQb2.access = .ro ∧ Reg.coefQb2.offset = 0x1D0 ∧
    Reg.status.access ≠ .ro ∧ (executing .nop).busy = true ∧ Reg.fNom.access = .rw ∧ State.reset.busy = false ∧
    256 ≤ (0x109 : Word).toNat ∧ (8 < (0x009 : Word).toNat ∧ (0x009 : Word).toNat < 256) ∧ decodeWord 0 = .ok .nop := by
  refine ⟨?_, ?_, ?_, ?_, ?_, ?_, ?_, ?_, ?_, ?_, rfl⟩ <;> decide

/-- -0 and 1.0 are in the duty's range, 1.5 and NaN are not. -/
theorem witness_BusWriteChecksInOrder_duty :
    (fLe fZero 0x8000000000000000#64 = true ∧ fLe 0x8000000000000000#64 fOne = true) ∧
    (fLe fZero fOne = true ∧ fLe fOne fOne = true) ∧
    ¬ (fLe fZero 0x3FF8000000000000#64 = true ∧ fLe 0x3FF8000000000000#64 fOne = true) ∧ ¬ (fLe fZero fNaN = true ∧ fLe fNaN fOne = true) := by
  decide

theorem witness_StoreThenReadRegister :
    Reg.ctrl.access = .rw ∧ Reg.periodTicks.access = .rw ∧ Reg.pvIIn.access = .rw ∧ Reg.pvIIn ≠ Reg.ctrl ∧ Reg.pvIIn ≠ Reg.periodTicks ∧
    Reg.pvIIn ≠ Reg.deadTime := by decide

theorem witness_ErrCauseLayout : State.reset.errCause = none ∧ (flagged .tick).errCause = some { cause := .busAlign, offset := 4, wr := false } := by
  decide

theorem witness_ByteViewIsLittleEndian :
    (0 : Nat) < 8 ∧ (7 : Nat) < 8 ∧ State.reset.byteView 0x047 = some 0x40 ∧ State.reset.byteView 0x046 = some 0x49 := by decide

theorem witness_AngleStaysInRange :
    ∃ t, exec .pllUpdate (executing .pllUpdate) = .next t ∧ (executing .pllUpdate).seq = .exec ∧
      fGe (executing .pllUpdate).pll.angle fZero = true ∧ fLt (executing .pllUpdate).pll.angle twoPi = true ∧
      fGe (fMul (fMul t.pll.freq (executing .pllUpdate).pllSnap.ts) twoPi) fZero = true ∧
      fLt (fMul (fMul t.pll.freq (executing .pllUpdate).pllSnap.ts) twoPi) twoPi = true :=
  ⟨_, rfl, rfl, by decide, by decide, by decide +kernel, by decide +kernel⟩

theorem witness_ZeroGainsRunOpenLoop :
    ∃ t, (executing .pllUpdate).seq = .exec ∧ (executing .pllUpdate).active.getLsbD 0 = false ∧ (executing .pllUpdate).pllSnap.b0 = fZero ∧
      (executing .pllUpdate).pllSnap.b1 = fZero ∧ (executing .pllUpdate).pll.lf0 = fZero ∧ isFinite (executing .pllUpdate).pll.qerr = true ∧
      isFinite (executing .pllUpdate).pllSnap.fn = true ∧ exec .pllUpdate (executing .pllUpdate) = .next t ∧ isFinite t.pll.qerr = true :=
  ⟨_, rfl, rfl, rfl, rfl, rfl, by decide, by decide, rfl, by decide +kernel⟩

/-- Strategy B with the reset gains and the sample 1.0 (as PB-2, but KP = 0): the update's error is 1.0. -/
theorem witness_ZeroGainsRunOpenLoop_b :
    ∃ s t : State, s.seq = .exec ∧ isFinite s.pllSnap.fn = true ∧ s.active.getLsbD 0 = true ∧ s.pllSnap.kp = fZero ∧ s.pllSnap.ki = fZero ∧
      s.pll.integ = fZero ∧ isFinite s.pllSnap.ts = true ∧ exec .pllUpdate s = .next t ∧ t.pll.qerr = fOne :=
  ⟨{ executing .pllUpdate with active := 1, inp := { sampleIn := fOne, pvV := 0, pvI := 0 } }, _, rfl, by decide, by decide, rfl, rfl, rfl,
    by decide, rfl, by decide +kernel⟩

/-- The vectors M2, M3 and M7 stand in the rows dP < 0, dP > 0 and dP = 0 of policy A; M13 has NaN differences. -/
theorem witness_MpptPolicyATable :
    (fLt (fSub (fMul 0x4024666666666666#64 0x3FECCCCCCCCCCCCD#64) 0x4024000000000000#64) 0 = true ∧
      fGt (fSub 0x4024666666666666#64 0x4024000000000000#64) 0 = true) ∧
    (fGt (fSub (fMul 0x402399999999999A#64 0x3FF199999999999A#64) 0x4024000000000000#64) 0 = true ∧
      fLt (fSub 0x402399999999999A#64 0x4024000000000000#64) 0 = true) ∧
    fEq (fSub (fMul 0x4029000000000000#64 0x3FE999999999999A#64) 0x4024000000000000#64) 0 = true ∧
    isNaN (fSub (fMul fNaN fOne) 0x4024000000000000#64) = true := by decide +kernel

/-- The vectors M15 and M16: P above PREV_P and not above it. -/
theorem witness_MpptPolicyB :
    fGt (fMul 0x4024666666666666#64 fOne) 0x4024000000000000#64 = true ∧ fGt (fMul 0x4024000000000000#64 fOne) 0x4024000000000000#64 = false := by
  decide +kernel

/-- The rows up 2 and down 2 of S4: a candidate equal to a bound. It is no saturation: neither flag is set. -/
theorem witness_MpptUpdateFlags_bound :
    (fAdd 0x3FEE3D70A3D70A3D#64 0x3F747AE147AE147B#64 = State.reset.mpptSnap.max ∧
      fGt State.reset.mpptSnap.max State.reset.mpptSnap.max = false ∧ fLt State.reset.mpptSnap.max State.reset.mpptSnap.min = false) ∧
    (fSub 0x3FAC28F5C28F5C29#64 0x3F747AE147AE147B#64 = State.reset.mpptSnap.min ∧
      fGt State.reset.mpptSnap.min State.reset.mpptSnap.max = false ∧ fLt State.reset.mpptSnap.min State.reset.mpptSnap.min = false) := by
  decide +kernel

/-- A hold of policy A at DUTY_MAX (dP = 0, as in M5) sets no flag. -/
theorem test_mppt_update_hold_at_bound :
    after (exec .mpptUpdate (mpptAt 0x3FEE666666666666#64 0x4024000000000000#64 fOne)) (fun t =>
      t.mppt.duty == 0x3FEE666666666666#64 && !t.sticky.dutySatHi && !t.sticky.dutySatLo) = true := by decide +kernel

/-- The vectors M10, M8 and M1: a candidate above the maximum, below the minimum, and between them. -/
theorem witness_MpptUpdateFlags :
    fGt (fAdd 0x3FEE666666666666#64 0x3F747AE147AE147B#64) 0x3FEE666666666666#64 = true ∧
    (fGt (fAdd 0 0x3F747AE147AE147B#64) 0x3FEE666666666666#64 = false ∧ fLt (fAdd 0 0x3F747AE147AE147B#64) 0x3FA999999999999A#64 = true) ∧
    (fGt 0x3FE028F5C28F5C29#64 0x3FEE666666666666#64 = false ∧ fLt 0x3FE028F5C28F5C29#64 0x3FA999999999999A#64 = false) := by decide +kernel

theorem witness_DutyStaysWithinBounds :
    (executing .mpptUpdate).seq = .exec ∧ isFinite (executing .mpptUpdate).mpptSnap.min = true ∧
    isFinite (executing .mpptUpdate).mpptSnap.max = true ∧
    fLe (executing .mpptUpdate).mpptSnap.min (executing .mpptUpdate).mpptSnap.max = true ∧
    isFinite (executing .mpptUpdate).mpptSnap.delta = true ∧ isFinite (executing .mpptUpdate).mppt.duty = true := by decide

/-- K15 and K17 (NaN and negative), K16 (above PERn), K9 (equal to PERn), K8 (-0). -/
theorem witness_MapUpdateCounts :
    isNaN (fMul (fOfNat 1000) fNaN) = true ∧ fLt (roundHalfAway (fMul (fOfNat 1000) 0xBFD0000000000000#64)) fZero = true ∧
    fGt (roundHalfAway (fMul (fOfNat 1000) 0x3FF8000000000000#64)) (fOfNat 1000) = true ∧
    fGt (roundHalfAway (fMul (fOfNat 1000) fOne)) (fOfNat 1000) = false ∧
    fLt (roundHalfAway (fMul (fOfNat 1000) 0x8000000000000000#64)) fZero = false := by decide +kernel

theorem witness_DutyInUnitRangeNeverSaturates :
    (fLe fZero fOne = true ∧ fLe fOne fOne = true) ∧ fLe fZero 0x8000000000000000#64 = true ∧
    (fLe 0x3FA999999999999A#64 0x3FA999999999999A#64 = true ∧ fLe 0x3FA999999999999A#64 0x3FEE666666666666#64 = true) := by decide

theorem witness_MapUpdateIsIdempotent :
    (mapAt 3 fHalf).seq = .exec ∧ (mapAt 3 fHalf).mapSnap.per = ({ mapAt 3 fHalf with busy := false }).mapSnap.per ∧
    (mapAt 3 fHalf).mppt.duty = ({ mapAt 3 fHalf with busy := false }).mppt.duty := ⟨rfl, rfl, rfl⟩

theorem witness_AcquisitionTakesDeliveries :
    (({ computing with seq := .acqGrid, agenda := [.grid 5] }).seq = .acqGrid ∧
      ({ computing with seq := .acqGrid, agenda := [.grid 5] }).agenda = [.grid 5]) ∧
    ({ computing with seq := .acqPv, agenda := [.pv 5 6] }).agenda = [.pv 5 6] ∧
    (({ computing with seq := .acqGrid }).seq = .acqGrid ∧ ∀ g r, ({ computing with seq := .acqGrid }).agenda ≠ .grid g :: r) ∧
    (({ computing with seq := .acqPv }).seq = .acqPv ∧ ∀ v c r, ({ computing with seq := .acqPv }).agenda ≠ .pv v c :: r) :=
  ⟨⟨rfl, rfl⟩, rfl, ⟨rfl, fun _ _ h => nomatch h⟩, ⟨rfl, fun _ _ _ h => nomatch h⟩⟩

theorem witness_CycleComputesAllThree : computing.seq = .compute ∧ computing.mode = .once := ⟨rfl, rfl⟩

theorem witness_RunComputesAndWaits :
    looping.mode = .loop ∧ ({ looping with seq := .compute }).seq = .compute ∧ (looping.seq = .waitTick ∧ looping.tickPending = true) ∧
    ({ looping with tickPending := false }).tickPending = false := ⟨rfl, rfl, ⟨rfl, rfl⟩, rfl⟩

theorem witness_TickIsLatchedWhileRunning :
    ((looping.push .tick).agenda = [.tick] ∧ (looping.push .tick).running = true) ∧
    ((State.reset.push .tick).agenda = [.tick] ∧ (State.reset.push .tick).running = false) := ⟨⟨rfl, rfl⟩, ⟨rfl, rfl⟩⟩

theorem witness_ResetFromAnyState : (looping.push .reset).agenda = [.reset] := rfl

theorem witness_ResetEqualsTheInits :
    (executing .pllInit).seq = .exec ∧ (executing .pllInit).ctrl = State.reset.ctrl ∧ (executing .pllInit).cfg = State.reset.cfg :=
  ⟨rfl, rfl, rfl⟩

/-- wait: BUSY is 0 after reset, and 1 while a command is in progress. -/
theorem witness_PollReadsAgain :
    ({ State.reset with agenda := scriptWait }).agenda = [.poll Reg.status.offset 1 0] ∧ readReg .status State.reset &&& 1 = 0 ∧
    readReg .status looping &&& 1 ≠ 0 := by decide

theorem witness_ResetRegisterValues :
    (0x3F8 : Offset).toNat % 8 = 0 ∧ (0x3F8 : Offset) ≠ 0x028 ∧ (0x3F8 : Offset) ∉ resetTable.map Prod.fst ∧
    (0x240#10, 0#64) ∈ resetTable := by decide

/-- 0.1 and 0.3 are finite, their sum, product and quotient are, and 0.3 is not zero. -/
theorem witness_nearest :
    isFinite 0x3FB999999999999A#64 = true ∧ isFinite 0x3FD3333333333333#64 = true ∧
    isFinite (fAdd 0x3FB999999999999A#64 0x3FD3333333333333#64) = true ∧ isFinite (fMul 0x3FB999999999999A#64 0x3FD3333333333333#64) = true ∧
    isFinite (fDiv 0x3FB999999999999A#64 0x3FD3333333333333#64) = true := by decide +kernel

/-- 1.0 is finite and not zero, as the divisor of QuotientIsNearest. -/
theorem witness_QuotientIsNearest : isFinite fOne = true ∧ fValue fOne ≠ 0 ∧ isFinite (fDiv fOne fOne) = true := by
  refine ⟨by decide, ?_, by decide +kernel⟩
  have h : signedUnits fOne ≠ 0 := by decide +kernel
  exact div_ne_zero (Int.cast_ne_zero.2 h) (pow_ne_zero _ two_ne_zero)

/-- A tie: 2^53 + 1 is as near to 2^53 as to 2^53 + 2, and the sum is the even one. -/
theorem witness_SumIsNearest_tie :
    fAdd 0x4340000000000000#64 fOne = 0x4340000000000000#64 ∧ (0x4340000000000000#64).getLsbD 0 = false ∧
    isFinite 0x4340000000000001#64 = true := by decide +kernel

/-- A tie: (1 + 2^-52) * 1.5 lies halfway between 1.5 + 2^-52 and 1.5 + 2^-51, and the product is the even one. -/
theorem witness_ProductIsNearest_tie :
    fMul 0x3FF0000000000001#64 0x3FF8000000000000#64 = 0x3FF8000000000002#64 ∧ isFinite 0x3FF8000000000001#64 = true := by decide +kernel

/-- A tie: three of the smallest subnormals over 2 lie halfway between one and two of them, and the quotient is the even one. -/
theorem witness_QuotientIsNearest_tie : fDiv 3 fTwo = 2 ∧ isFinite 1 = true := by decide +kernel

/-- The bound of the finite results: the largest binary64 and half a unit above it (2^970) give an infinity, one step below that they do
not, and an infinite result takes the sign of the exact one. -/
theorem witness_overflow :
    isFinite 0x7FEFFFFFFFFFFFFF#64 = true ∧ isFinite 0x7C90000000000000#64 = true ∧
    fAdd 0x7FEFFFFFFFFFFFFF#64 0x7C90000000000000#64 = 0x7FF0000000000000#64 ∧
    fAdd 0x7FEFFFFFFFFFFFFF#64 0x7C8FFFFFFFFFFFFF#64 = 0x7FEFFFFFFFFFFFFF#64 ∧
    fMul 0xFFEFFFFFFFFFFFFF#64 fTwo = 0xFFF0000000000000#64 ∧ fDiv 0x7FEFFFFFFFFFFFFF#64 fHalf = 0x7FF0000000000000#64 := by decide +kernel

/-- CTRL and MAP_ON_TICKS, the first and last rows of the map, and two registers of the PLL. -/
theorem witness_EachOffsetReadsItsField :
    (0x240#10, 7#64) ∈ registerTable { State.reset with mapOnTicks := 7 } ∧ (0x000#10, 0#64) ∈ registerTable State.reset ∧
    (0x118#10, fOne) ∈ registerTable State.reset ∧ (State.reset.push (.read 0x240 8)).agenda = [.read 0x240 8] := by decide

/-- Each clause: a NaN, the infinities, opposite values, the zeros. -/
theorem witness_SpecialOperandResults :
    isNaN fNaN = true ∧ isInf 0x7FF0000000000000#64 = true ∧ isInf 0xFFF0000000000000#64 = true ∧ isFinite fOne = true ∧
    signedUnits fOne + signedUnits 0xBFF0000000000000#64 = 0 ∧ fEq 0x8000000000000000#64 fZero = true ∧ fEq fOne fZero = false ∧
    isNaN (fMul fOne fOne) = false ∧ isNaN (fDiv fOne fOne) = false := by decide +kernel

/-- 0.06 - 0.005 and 0.505 - 0.505: a difference that is rounded (S4, down 1) and one that is exactly zero. -/
theorem witness_SumIsNearest_difference :
    fSub 0x3FAEB851EB851EB8#64 0x3F747AE147AE147B#64 = 0x3FAC28F5C28F5C29#64 ∧ fSub 0x3FE028F5C28F5C29#64 0x3FE028F5C28F5C29#64 = 0 := by
  decide +kernel

theorem witness_ComparisonsAreOfValues_infinities :
    isFinite 0x7FEFFFFFFFFFFFFF#64 = true ∧ fLt 0x7FEFFFFFFFFFFFFF#64 0x7FF0000000000000#64 = true ∧
    fLt 0xFFF0000000000000#64 0xFFEFFFFFFFFFFFFF#64 = true := by decide

theorem witness_ComparisonsAreOfValues : isFinite fOne = true ∧ isFinite 0x8000000000000000#64 = true ∧ isNaN fNaN = true := by decide

theorem witness_NanResultsAreCanonical : isNaN (fMul 0x7FF0000000000000#64 fZero) = true ∧ isNaN (sinF fNaN) = true := by decide +kernel

theorem witness_RoundHalfAwayIsNearestInteger : isFinite fHalf = true ∧ roundHalfAway fHalf = fOne := by decide +kernel

theorem witness_TrigUnitProperties : isFinite 0x7FF0000000000000#64 = false ∧ isFinite fNaN = false ∧ isFinite twoPi = true := by decide

end Sys2Proof.Tests
end

section
/-! The one rounding of binary64 is to the nearest, ties to even, with overflow at the bound of R11; so are sums, differences, products
and quotients of finite values. -/

namespace Sys2Proof.Machine

/-! The one rounding is to the nearest (R11). -/

/-- No natural number is nearer to n / d than `divNearestEven n d`, and it is even where another one is as near. -/
theorem divNearestEven_nearest {n d : Nat} (hd : 0 < d) (j : Nat) :
    |(n : ℤ) - divNearestEven n d * d| ≤ |(n : ℤ) - j * d| ∧
    (|(n : ℤ) - divNearestEven n d * d| = |(n : ℤ) - j * d| → j ≠ divNearestEven n d → divNearestEven n d % 2 = 0) := by
  obtain ⟨hhi, hlo⟩ := divNearestEven_half (n := n) hd
  have htie := divNearestEven_even (n := n) hd
  generalize divNearestEven n d = k at *
  rcases eq_or_ne j k with rfl | hne
  · exact ⟨le_rfl, fun _ h => absurd rfl h⟩
  · have hfar : j * d + d ≤ k * d ∨ k * d + d ≤ j * d := by
      rw [← Nat.succ_mul, ← Nat.succ_mul]
      exact hne.lt_or_gt.imp (Nat.mul_le_mul_right d) (Nat.mul_le_mul_right d)
    rw [← Nat.cast_mul, ← Nat.cast_mul, Int.abs_eq_natAbs, Int.abs_eq_natAbs]
    generalize j * d = a at *
    generalize k * d = b at *
    exact ⟨by omega, fun h _ => htie (by omega)⟩

/-- Magnitudes with a significand at or above position q are multiples of 2^q. -/
theorem two_pow_dvd_magUnits {m q : Nat} (h : 2 ^ 52 * 2 ^ q ≤ magUnits m) : 2 ^ q ∣ magUnits m := by
  obtain ⟨e, k, -, hk, -, hu⟩ := magUnits_unpack m
  rw [hu] at h ⊢
  have hlt : 2 ^ 52 * 2 ^ q < 2 ^ 53 * 2 ^ e := h.trans_lt (Nat.mul_lt_mul_of_pos_right hk (Nat.two_pow_pos e))
  rw [← Nat.pow_add, ← Nat.pow_add, Nat.pow_lt_pow_iff_right (by decide)] at hlt
  exact (Nat.pow_dvd_pow 2 (by omega)).mul_left k

/-- No magnitude is nearer to n / d units than a finite rounded one, which is even where another one is as near: a multiple of the last
place is covered by the division, and any other magnitude lies below 2^52 last places, which n / d does not. -/
theorem roundMag_nearest {n d : Nat} (hd : 0 < d) (hfin : roundMag n d < infMag) (m : Nat) :
    |(n : ℤ) - magUnits (roundMag n d) * d| ≤ |(n : ℤ) - magUnits m * d| ∧
    (|(n : ℤ) - magUnits (roundMag n d) * d| = |(n : ℤ) - magUnits m * d| → m ≠ roundMag n d → roundMag n d % 2 = 0) := by
  obtain ⟨hmag, hval⟩ := magUnits_roundMag hd hfin
  have hplace : ∀ j : Nat, ((j * 2 ^ roundShift n d : Nat) : ℤ) * d = j * ((d * 2 ^ roundShift n d : Nat) : ℤ) := fun j => by
    push_cast; ring
  have hnear := divNearestEven_nearest (n := n) (Nat.mul_pos hd (Nat.two_pow_pos (roundShift n d)))
  rw [hval, hplace]
  by_cases hm : 2 ^ roundShift n d ∣ magUnits m
  · obtain ⟨j, hj⟩ := hm
    rw [Nat.mul_comm] at hj
    obtain ⟨hle, htie⟩ := hnear j
    rw [hj, hplace]
    refine ⟨hle, fun heq hne => ?_⟩
    have hjk : j ≠ divNearestEven n (d * 2 ^ roundShift n d) := fun h =>
      hne (magUnits_strictMono.injective (by rw [hj, hval, h]))
    have := htie heq hjk
    omega
  · have hbelow : magUnits m < 2 ^ 52 * 2 ^ roundShift n d := Nat.lt_of_not_le fun h => hm (two_pow_dvd_magUnits h)
    have hshift : 0 < roundShift n d := Nat.pos_of_ne_zero fun h0 => hm (by rw [h0, Nat.pow_zero]; exact Nat.one_dvd _)
    have hn := le_of_roundShift hshift
    have hfar : magUnits m * d < 2 ^ 52 * (d * 2 ^ roundShift n d) := by
      calc magUnits m * d < 2 ^ 52 * 2 ^ roundShift n d * d := Nat.mul_lt_mul_of_pos_right hbelow hd
        _ = 2 ^ 52 * (d * 2 ^ roundShift n d) := by ring
    have hlt : |(n : ℤ) - divNearestEven n (d * 2 ^ roundShift n d) * (d * 2 ^ roundShift n d : Nat)| < |(n : ℤ) - magUnits m * d| := by
      refine (hnear (2 ^ 52)).1.trans_lt ?_
      rw [← Nat.cast_mul, ← Nat.cast_mul, Int.abs_eq_natAbs, Int.abs_eq_natAbs]
      generalize 2 ^ 52 * (d * 2 ^ roundShift n d) = b at *
      generalize magUnits m * d = a at *
      omega
    exact ⟨hlt.le, fun heq => absurd heq hlt.ne⟩

/-! Exact values of packed patterns. -/

/-- The factor 1 or -1 of a sign bit. -/
def signFactor (neg : Bool) : ℚ := if neg then -1 else 1

@[simp] theorem abs_signFactor (neg : Bool) : |signFactor neg| = 1 := by cases neg <;> simp [signFactor]

theorem signFactor_not (neg : Bool) : signFactor (!neg) = -signFactor neg := by cases neg <;> simp [signFactor]

theorem signFactor_bne (a b : Bool) : signFactor (a != b) = signFactor a * signFactor b := by
  cases a <;> cases b <;> simp [signFactor]

theorem signFactor_div (a b : Bool) : signFactor a / signFactor b = signFactor a * signFactor b := by
  cases a <;> cases b <;> norm_num [signFactor]

/-- The exact value of a finite magnitude. -/
def magValue (m : Nat) : ℚ := (magUnits m : ℚ) / 2 ^ 1074

theorem magValue_nonneg (m : Nat) : 0 ≤ magValue m := div_nonneg (Nat.cast_nonneg _) (by positivity)

theorem magValue_zero : magValue 0 = 0 := by simp [magValue, magUnits]

theorem fValue_eq (x : F64) : fValue x = signFactor (fSignBit x) * magValue (fMag x) := by
  cases h : fSignBit x <;> simp [fValue, signedUnits, units, magValue, signFactor, h, neg_div]

theorem fValue_fPack {neg : Bool} {m : Nat} (h : m < 2 ^ 63) : fValue (fPack neg m) = signFactor neg * magValue m := by
  rw [fValue_eq, fSignBit_fPack h, fMag_fPack h]

theorem isFinite_fPack {neg : Bool} {m : Nat} (h : m < 2 ^ 63) : isFinite (fPack neg m) = decide (m < infMag) := by
  rw [isFinite, fMag_fPack h]

theorem getLsbD_zero_fPack (neg : Bool) (m : Nat) : (fPack neg m).getLsbD 0 = decide (m % 2 = 1) := by
  rw [fPack, BitVec.getLsbD_ofNat, Nat.testBit_zero]
  cases neg <;> simp [Nat.add_mod]

theorem abs_signFactor_mul_sub (neg : Bool) (a b : ℚ) : |signFactor neg * a - signFactor neg * b| = |a - b| := by
  rw [← mul_sub, abs_mul, abs_signFactor, one_mul]

/-- To a value of sign `neg` and magnitude a, some magnitude with that sign is at least as near as z: that of z, or zero where z has the
other sign. -/
theorem exists_mag_as_near (neg : Bool) {a : ℚ} (ha : 0 ≤ a) (z : F64) :
    ∃ m, |a - magValue m| ≤ |signFactor neg * a - fValue z| ∧
      (|a - magValue m| = |signFactor neg * a - fValue z| → fValue z = signFactor neg * magValue m) := by
  rw [fValue_eq]
  by_cases hs : fSignBit z = neg
  · exact ⟨fMag z, by rw [hs, abs_signFactor_mul_sub], fun _ => by rw [hs]⟩
  · have hz := magValue_nonneg (fMag z)
    have hopp : signFactor (fSignBit z) * magValue (fMag z) = signFactor neg * -magValue (fMag z) := by
      rw [Bool.eq_not_of_ne hs, signFactor_not, neg_mul, mul_neg]
    refine ⟨0, ?_⟩
    rw [hopp, abs_signFactor_mul_sub, magValue_zero, sub_zero, sub_neg_eq_add, abs_of_nonneg ha, abs_of_nonneg (add_nonneg ha hz)]
    exact ⟨le_add_of_nonneg_right hz, fun heq => by rw [left_eq_add.1 heq, neg_zero]⟩

theorem abs_sub_magValue {n d : Nat} (hd : 0 < d) (m : Nat) :
    |(n : ℚ) / d / 2 ^ 1074 - magValue m| = ((|(n : ℤ) - magUnits m * d| : ℤ) : ℚ) / (d * 2 ^ 1074) := by
  have hd' : (0 : ℚ) < d := Nat.cast_pos.2 hd
  have hp : (0 : ℚ) < 2 ^ 1074 := by positivity
  unfold magValue
  generalize (2 : ℚ) ^ 1074 = p at *
  rw [show (n : ℚ) / d / p - magUnits m / p = (n - magUnits m * d) / (d * p) by field_simp, abs_div, abs_of_pos (mul_pos hd' hp)]
  push_cast
  rfl

/-- What R11 asks of a result r of exact value v: finite exactly where |v| is below half a unit above the largest binary64, there the
nearest binary64 with ties to even, elsewhere the infinity of the sign of v. -/
def RoundsTo (v : ℚ) (r : F64) : Prop :=
  (isFinite r = true ↔ |v| < 2 ^ 1024 - 2 ^ 970) ∧
  (isFinite r = false → r = if 0 < v then 0x7FF0000000000000#64 else 0xFFF0000000000000#64) ∧
  (isFinite r = true → ∀ z : F64, isFinite z = true →
    |v - fValue r| ≤ |v - fValue z| ∧ (|v - fValue r| = |v - fValue z| → fValue z ≠ fValue r → r.getLsbD 0 = false))

section
variable {n d : Nat}

/-- The bound of R11 in units of 2^-1074. -/
theorem lt_overflowBound_iff (hd : 0 < d) : n < (2 ^ 54 - 1) * 2 ^ 2044 * d ↔ (n : ℚ) / d / 2 ^ 1074 < 2 ^ 1024 - 2 ^ 970 := by
  have hbound : ((2 : ℚ) ^ 1024 - 2 ^ 970) * 2 ^ 1074 * d = ((2 ^ 54 - 1) * 2 ^ 2044 * d : Nat) := by
    rw [show (2 : ℚ) ^ 1024 = 2 ^ 54 * 2 ^ 970 by rw [← pow_add], show (2 : Nat) ^ 2044 = 2 ^ 970 * 2 ^ 1074 by rw [← Nat.pow_add]]
    push_cast [-Nat.reducePow]
    generalize (2 : ℚ) ^ 970 = p
    generalize (2 : ℚ) ^ 1074 = q
    ring
  rw [div_lt_iff₀ (by positivity), div_lt_iff₀ (Nat.cast_pos.2 hd), hbound, Nat.cast_lt]

theorem fPack_infMag (neg : Bool) : fPack neg infMag = if neg then 0xFFF0000000000000#64 else 0x7FF0000000000000#64 := by
  cases neg <;> decide

/-- `roundMag_nearest` of the exact values. -/
theorem magValue_roundMag_nearest (hd : 0 < d) (hfin : roundMag n d < infMag) (m : Nat) :
    |(n : ℚ) / d / 2 ^ 1074 - magValue (roundMag n d)| ≤ |(n : ℚ) / d / 2 ^ 1074 - magValue m| ∧
    (|(n : ℚ) / d / 2 ^ 1074 - magValue (roundMag n d)| = |(n : ℚ) / d / 2 ^ 1074 - magValue m| →
      m ≠ roundMag n d → roundMag n d % 2 = 0) := by
  have hscale : (0 : ℚ) < d * 2 ^ 1074 := by positivity
  rw [abs_sub_magValue hd, abs_sub_magValue hd, div_le_div_iff_of_pos_right hscale, div_left_inj' hscale.ne', Int.cast_le, Int.cast_inj]
  exact roundMag_nearest hd hfin m

/-- A packed rounding of the exact magnitude n / d is what R11 asks. -/
theorem roundsTo_fPack_roundMag (neg : Bool) (hd : 0 < d) :
    RoundsTo (signFactor neg * ((n : ℚ) / d / 2 ^ 1074)) (fPack neg (roundMag n d)) := by
  have hnn : 0 ≤ (n : ℚ) / d / 2 ^ 1074 := by positivity
  unfold RoundsTo
  rw [isFinite_fPack (roundMag_lt n d), fValue_fPack (roundMag_lt n d), getLsbD_zero_fPack, decide_eq_true_eq, decide_eq_false_iff_not,
    abs_mul, abs_signFactor, one_mul, abs_of_nonneg hnn, ← lt_overflowBound_iff hd]
  refine ⟨roundMag_lt_infMag_iff hd, fun hinf => ?_, fun hfin z _ => ?_⟩
  · have hn : 0 < n := by
      rw [roundMag_lt_infMag_iff hd, Nat.not_lt] at hinf
      exact hinf.trans_lt' (by positivity)
    have hpos : 0 < (n : ℚ) / d / 2 ^ 1074 := by positivity
    rw [Nat.le_antisymm (roundMag_le n d) (Nat.not_lt.1 hinf), fPack_infMag]
    cases neg <;> simp [signFactor, hpos, hpos.le]
  · obtain ⟨m, hle, heq⟩ := exists_mag_as_near neg hnn z
    obtain ⟨hnear, htie⟩ := magValue_roundMag_nearest hd hfin m
    rw [abs_signFactor_mul_sub]
    refine ⟨hnear.trans hle, fun he hne => ?_⟩
    have hem := hnear.antisymm (hle.trans_eq he.symm)
    rw [heq (hem.symm.trans he)] at hne
    have hm : m ≠ roundMag n d := fun h => hne (by rw [h])
    simp [htie hem hm]

end

/-! Sums, products and quotients of finite values, in units. -/

section
variable {x y : F64}

theorem fValue_eq_signFactor_units (x : F64) : fValue x = signFactor (fSignBit x) * (units x / 2 ^ 1074) := fValue_eq x

theorem fAdd_of_isFinite (hx : isFinite x = true) (hy : isFinite y = true) :
    fAdd x y = if signedUnits x + signedUnits y = 0 then fPack (fSignBit x && fSignBit y) 0
      else fPack (decide (signedUnits x + signedUnits y < 0)) (roundMag (signedUnits x + signedUnits y).natAbs 1) := by
  simp [fAdd, isNaN_false_of_isFinite, isInf_false_of_isFinite, hx, hy]

theorem fMul_of_isFinite (hx : isFinite x = true) (hy : isFinite y = true) :
    fMul x y = fPack (fSignBit x != fSignBit y) (roundMag (units x * units y) (2 ^ 1074)) := by
  simp [-Nat.reducePow, fMul, isNaN_false_of_isFinite, isInf_false_of_isFinite, hx, hy]

theorem fDiv_of_isFinite (hx : isFinite x = true) (hy : isFinite y = true) (h0 : fMag y ≠ 0) :
    fDiv x y = fPack (fSignBit x != fSignBit y) (roundMag (units x * 2 ^ 1074) (units y)) := by
  simp [-Nat.reducePow, fDiv, isNaN_false_of_isFinite, isInf_false_of_isFinite, hx, hy, h0]

theorem roundMag_zero {d : Nat} (hd : 0 < d) : roundMag 0 d = 0 := by
  simpa [magUnits] using roundMag_exact (m := 0) hd (Nat.zero_le _)

theorem intCast_eq_signFactor (k : ℤ) : (k : ℚ) = signFactor (decide (k < 0)) * k.natAbs := by
  rw [Nat.cast_natAbs]
  rcases lt_or_ge k 0 with h | h
  · simp [signFactor, h, abs_of_neg h]
  · simp [signFactor, not_lt.2 h, abs_of_nonneg h]

theorem roundsTo_fAdd (hx : isFinite x = true) (hy : isFinite y = true) : RoundsTo (fValue x + fValue y) (fAdd x y) := by
  have hv : fValue x + fValue y = ((signedUnits x + signedUnits y : ℤ) : ℚ) / 2 ^ 1074 := by
    rw [fValue, fValue, Int.cast_add, add_div]
  rw [hv, fAdd_of_isFinite hx hy]
  split
  · next h0 =>
    have := roundsTo_fPack_roundMag (n := 0) (fSignBit x && fSignBit y) Nat.one_pos
    rw [roundMag_zero Nat.one_pos] at this
    simpa [h0] using this
  · have := roundsTo_fPack_roundMag (n := (signedUnits x + signedUnits y).natAbs) (decide (signedUnits x + signedUnits y < 0)) Nat.one_pos
    rwa [Nat.cast_one, div_one, mul_div_assoc', ← intCast_eq_signFactor] at this

theorem roundsTo_fSub (hx : isFinite x = true) (hy : isFinite y = true) : RoundsTo (fValue x - fValue y) (fSub x y) := by
  rw [sub_eq_add_neg, ← fValue_fNegate, fSub]
  exact roundsTo_fAdd hx (by rw [isFinite_fNegate, hy])

theorem roundsTo_fMul (hx : isFinite x = true) (hy : isFinite y = true) : RoundsTo (fValue x * fValue y) (fMul x y) := by
  have hv : fValue x * fValue y =
      signFactor (fSignBit x != fSignBit y) * ((units x * units y : Nat) / (2 ^ 1074 : Nat) / 2 ^ 1074) := by
    rw [fValue_eq_signFactor_units, fValue_eq_signFactor_units, signFactor_bne, Nat.cast_mul, Nat.cast_pow, Nat.cast_ofNat]
    generalize (2 : ℚ) ^ 1074 = p
    ring
  rw [hv, fMul_of_isFinite hx hy]
  exact roundsTo_fPack_roundMag _ (by positivity)

theorem roundsTo_fDiv (hx : isFinite x = true) (hy : isFinite y = true) (h0 : fValue y ≠ 0) :
    RoundsTo (fValue x / fValue y) (fDiv x y) := by
  have hu : units y ≠ 0 := fun h => h0 (by rw [fValue_eq_signFactor_units, h]; simp)
  have hm : fMag y ≠ 0 := fun h => hu (by rw [units, h]; decide)
  have hp : (2 : ℚ) ^ 1074 ≠ 0 := by positivity
  have hv : fValue x / fValue y =
      signFactor (fSignBit x != fSignBit y) * ((units x * 2 ^ 1074 : Nat) / units y / 2 ^ 1074) := by
    rw [fValue_eq_signFactor_units, fValue_eq_signFactor_units, signFactor_bne, Nat.cast_mul, Nat.cast_pow, Nat.cast_ofNat,
      mul_div_mul_comm, signFactor_div, div_div_div_cancel_right₀ hp, mul_div_right_comm, mul_div_cancel_right₀ _ hp]
  rw [hv, fDiv_of_isFinite hx hy hm]
  exact roundsTo_fPack_roundMag _ (Nat.pos_of_ne_zero hu)

end

/-- Settles O52: the exact sum is an integer number of units, rounded once; a difference is the sum with the negated operand. -/
theorem sumIsNearest : Obligations.SumIsNearest :=
  ⟨fun _ _ => roundsTo_fAdd, fun _ _ => roundsTo_fSub, fun _ _ => rfl⟩

/-- Settles O53: the exact product of the units, over 2^1074, is rounded once. -/
theorem productIsNearest : Obligations.ProductIsNearest := fun _ _ => roundsTo_fMul

/-- Settles O54: the exact quotient of the units, times 2^1074, is rounded once. -/
theorem quotientIsNearest : Obligations.QuotientIsNearest := fun _ _ => roundsTo_fDiv

end Sys2Proof.Machine
end

section
/-! The comparisons, NaN results, roundHalfAway and the results on special operands. -/

namespace Sys2Proof.Machine

/-! The comparisons (R11). -/

/-- The units of the value with a given order key: the magnitude's units with the key's sign. -/
def keyUnits (k : ℤ) : ℤ := k.sign * magUnits k.natAbs

theorem keyUnits_natCast (m : Nat) : keyUnits m = magUnits m := by
  rcases Nat.eq_zero_or_pos m with rfl | h
  · decide
  · rw [keyUnits, Int.sign_eq_one_of_pos (by omega), one_mul, Int.natAbs_natCast]

theorem keyUnits_neg (k : ℤ) : keyUnits (-k) = -keyUnits k := by
  simp [keyUnits]

theorem keyUnits_strictMono : StrictMono keyUnits := by
  refine strictMono_of_odd_strictMonoOn_nonneg keyUnits_neg fun a ha b hb hab => ?_
  lift a to ℕ using ha
  lift b to ℕ using hb
  rw [keyUnits_natCast, keyUnits_natCast]
  exact Int.ofNat_lt.2 (magUnits_strictMono (Int.ofNat_lt.1 hab))

theorem signedUnits_eq_keyUnits (x : F64) : signedUnits x = keyUnits (fKey x) := by
  cases h : fSignBit x <;> simp [signedUnits, fKey, units, h, keyUnits_natCast, keyUnits_neg]

theorem fValue_lt_iff {x y : F64} : fValue x < fValue y ↔ fKey x < fKey y := by
  rw [fValue, fValue, div_lt_div_iff_of_pos_right (by positivity), Int.cast_lt, signedUnits_eq_keyUnits, signedUnits_eq_keyUnits,
    keyUnits_strictMono.lt_iff_lt]

theorem fValue_le_iff {x y : F64} : fValue x ≤ fValue y ↔ fKey x ≤ fKey y := by
  rw [← not_lt, fValue_lt_iff, not_lt]

theorem fValue_eq_iff {x y : F64} : fValue x = fValue y ↔ fKey x = fKey y := by
  rw [le_antisymm_iff, fValue_le_iff, fValue_le_iff, ← le_antisymm_iff]

theorem fEq_iff {x y : F64} (hx : isNaN x = false) (hy : isNaN y = false) : fEq x y = true ↔ fKey x = fKey y := by
  simp [fEq, hx, hy]

theorem isFinite_iff_abs_fKey {x : F64} : isFinite x = true ↔ |fKey x| < infMag := by
  cases h : fSignBit x <;> simp [isFinite, fKey, h]

/-- Settles O55: the value grows strictly with the order key, which lies between those of the infinities exactly for finite values. -/
theorem comparisonsAreOfValues : Obligations.ComparisonsAreOfValues := by
  intro x y
  refine ⟨fun hx hy => ?_, fun h => ?_, fun h => ?_, fun h => ?_⟩
  · have hx := isNaN_false_of_isFinite hx
    have hy := isNaN_false_of_isFinite hy
    rw [fGt, fGe, fNe, Bool.not_eq_true', ← Bool.not_eq_true, fLt_iff hx hy, fLt_iff hy hx, fLe_iff hx hy, fLe_iff hy hx, fEq_iff hx hy,
      fValue_lt_iff, fValue_lt_iff, fValue_le_iff, fValue_le_iff, Ne, fValue_eq_iff]
    simp
  · have hlt : isNaN x = false ∧ isNaN y = false ∧ fKey x < fKey y := by
      have hn : isNaN 0xFFF0000000000000#64 = false ∧ fKey 0xFFF0000000000000#64 = -infMag := by decide
      have hp : isNaN 0x7FF0000000000000#64 = false ∧ fKey 0x7FF0000000000000#64 = infMag := by decide
      rcases h with ⟨rfl, hy⟩ | ⟨hx, rfl⟩ | ⟨rfl, rfl⟩
      · exact ⟨hn.1, isNaN_false_of_isFinite hy, hn.2 ▸ (abs_lt.1 (isFinite_iff_abs_fKey.1 hy)).1⟩
      · exact ⟨isNaN_false_of_isFinite hx, hp.1, hp.2 ▸ (abs_lt.1 (isFinite_iff_abs_fKey.1 hx)).2⟩
      · decide
    obtain ⟨hx, hy, hk⟩ := hlt
    simp [fLt, fLe, fGt, fGe, fEq, fNe, hx, hy, hk, hk.le, hk.ne, hk.ne']
  · have hx : isNaN x = false := by rcases h with rfl | rfl <;> decide
    simp [fLt, fLe, fGt, fGe, fEq, fNe, hx]
  · rcases h with h | h <;> simp [fLt, fLe, fGt, fGe, fEq, fNe, h]

/-! NaN results (R17). -/

theorem isFinite_or_isInf_or_isNaN (x : F64) : isFinite x = true ∨ isInf x = true ∨ isNaN x = true := by
  simp only [isFinite, isInf, isNaN, decide_eq_true_eq, beq_iff_eq]
  omega

theorem isNaN_false_of_isInf {x : F64} (h : isInf x = true) : isNaN x = false := by
  simp only [isInf, isNaN, beq_iff_eq, decide_eq_false_iff_not] at *
  omega

theorem isNaN_fPack {neg : Bool} {m : Nat} (h : m ≤ infMag) : isNaN (fPack neg m) = false := by
  rw [isNaN, fMag_fPack (h.trans_lt (by decide)), decide_eq_false_iff_not]
  omega

theorem fAdd_of_isNaN {x y : F64} (h : isNaN x = true ∨ isNaN y = true) : fAdd x y = fNaN := by
  rcases h with h | h <;> simp [fAdd, h]

theorem fMul_of_isNaN {x y : F64} (h : isNaN x = true ∨ isNaN y = true) : fMul x y = fNaN := by
  rcases h with h | h <;> simp [fMul, h]

theorem fDiv_of_isNaN {x y : F64} (h : isNaN x = true ∨ isNaN y = true) : fDiv x y = fNaN := by
  rcases h with h | h <;> simp [fDiv, h]

theorem fAdd_of_isInf_left {x y : F64} (hx : isInf x = true) (hy : isNaN y = false) :
    fAdd x y = if isInf y && fSignBit x != fSignBit y then fNaN else x := by
  simp [fAdd, hx, hy, isNaN_false_of_isInf]

theorem fAdd_of_isFinite_of_isInf {x y : F64} (hx : isFinite x = true) (hy : isInf y = true) : fAdd x y = y := by
  simp [fAdd, hx, hy, isNaN_false_of_isInf, isNaN_false_of_isFinite, isInf_false_of_isFinite]

theorem fMul_of_isInf {x y : F64} (hx : isNaN x = false) (hy : isNaN y = false) (h : isInf x = true ∨ isInf y = true) :
    fMul x y = if fMag x = 0 ∨ fMag y = 0 then fNaN else fPack (fSignBit x != fSignBit y) infMag := by
  rcases h with h | h <;> simp [fMul, hx, hy, h]

theorem fDiv_of_isInf_of_isInf {x y : F64} (hx : isInf x = true) (hy : isInf y = true) : fDiv x y = fNaN := by
  simp [fDiv, isNaN_false_of_isInf, hx, hy]

theorem fDiv_of_isInf_of_isFinite {x y : F64} (hx : isInf x = true) (hy : isFinite y = true) :
    fDiv x y = fPack (fSignBit x != fSignBit y) infMag := by
  simp [fDiv, isNaN_false_of_isInf, isNaN_false_of_isFinite, isInf_false_of_isFinite, hx, hy]

theorem fDiv_of_isFinite_of_isInf {x y : F64} (hx : isFinite x = true) (hy : isInf y = true) :
    fDiv x y = fPack (fSignBit x != fSignBit y) 0 := by
  simp [fDiv, isNaN_false_of_isInf, isNaN_false_of_isFinite, isInf_false_of_isFinite, hx, hy]

theorem fDiv_of_zero {x y : F64} (hx : isFinite x = true) (h0 : fMag y = 0) :
    fDiv x y = if fMag x = 0 then fNaN else fPack (fSignBit x != fSignBit y) infMag := by
  have hy : isFinite y = true := by simp [isFinite, h0, infMag]
  simp [fDiv, isNaN_false_of_isFinite, isInf_false_of_isFinite, hx, hy, h0]

theorem fAdd_eq_fNaN_or (x y : F64) : fAdd x y = fNaN ∨ isNaN (fAdd x y) = false := by
  rcases isFinite_or_isInf_or_isNaN x with hx | hx | hx
  · rcases isFinite_or_isInf_or_isNaN y with hy | hy | hy
    · exact .inr (isNaN_fAdd hx hy)
    · exact .inr (by rw [fAdd_of_isFinite_of_isInf hx hy, isNaN_false_of_isInf hy])
    · exact .inl (fAdd_of_isNaN (.inr hy))
  · by_cases hy : isNaN y = true
    · exact .inl (fAdd_of_isNaN (.inr hy))
    · rw [fAdd_of_isInf_left hx (Bool.eq_false_iff.2 hy)]
      split
      · exact .inl rfl
      · exact .inr (isNaN_false_of_isInf hx)
  · exact .inl (fAdd_of_isNaN (.inl hx))

/-- A product is the canonical NaN, or packs the product of the signs. -/
theorem fMul_eq_fNaN_or_fPack (x y : F64) :
    fMul x y = fNaN ∨ ∃ m ≤ infMag, fMul x y = fPack (fSignBit x != fSignBit y) m := by
  unfold fMul
  split_ifs
  · exact .inl rfl
  · exact .inl rfl
  · exact .inr ⟨_, le_rfl, rfl⟩
  · exact .inr ⟨_, roundMag_le _ _, rfl⟩

/-- A quotient is the canonical NaN, or packs the quotient of the signs. -/
theorem fDiv_eq_fNaN_or_fPack (x y : F64) :
    fDiv x y = fNaN ∨ ∃ m ≤ infMag, fDiv x y = fPack (fSignBit x != fSignBit y) m := by
  unfold fDiv
  split_ifs
  · exact .inl rfl
  · exact .inl rfl
  · exact .inr ⟨_, le_rfl, rfl⟩
  · exact .inr ⟨_, Nat.zero_le _, rfl⟩
  · exact .inl rfl
  · exact .inr ⟨_, le_rfl, rfl⟩
  · exact .inr ⟨_, roundMag_le _ _, rfl⟩

theorem eq_fNaN_or_not_isNaN {r : F64} {neg : Bool} (h : r = fNaN ∨ ∃ m ≤ infMag, r = fPack neg m) : r = fNaN ∨ isNaN r = false :=
  h.imp_right fun ⟨_, hm, he⟩ => he ▸ isNaN_fPack hm

theorem fSignBit_of_not_isNaN {r : F64} {neg : Bool} (h : r = fNaN ∨ ∃ m ≤ infMag, r = fPack neg m) (hn : isNaN r = false) :
    fSignBit r = neg := by
  rcases h with rfl | ⟨m, hm, rfl⟩
  · exact absurd hn (by decide)
  · exact fSignBit_fPack (hm.trans_lt (by decide))

theorem isNaN_fOfFields (f : Config.FiniteFields) : isNaN (fOfFields f) = false := by
  refine isNaN_fPack ?_
  have := f.2.1.isLt
  have := f.2.2.isLt
  simp only [infMag]
  omega

theorem sinF_eq_fNaN_or (x : F64) : sinF x = fNaN ∨ isNaN (sinF x) = false := by
  unfold sinF
  split_ifs
  · exact .inr (by decide)
  · exact .inr (isNaN_fOfFields _)
  · exact .inl rfl

theorem cosF_eq_fNaN_or (x : F64) : cosF x = fNaN ∨ isNaN (cosF x) = false := by
  unfold cosF
  split_ifs
  · exact .inr (by decide)
  · exact .inr (isNaN_fOfFields _)
  · exact .inl rfl

theorem getLsbD_fNegate (x : F64) (k : Nat) : (fNegate x).getLsbD k = (x.getLsbD k != (k == 63)) := by
  have hbit : (0x8000000000000000#64).getLsbD k = (k == 63) := by
    rw [show 0x8000000000000000#64 = BitVec.twoPow 64 63 by decide, BitVec.getLsbD_twoPow]
    simp [Bool.beq_eq_decide_eq, eq_comm]
  rw [fNegate, BitVec.getLsbD_xor, hbit]

/-- Settles O56: each operation gives `fNaN` itself or no NaN. -/
theorem nanResultsAreCanonical : Obligations.NanResultsAreCanonical := by
  intro x y
  refine ⟨fun r hr hnan => ?_, getLsbD_fNegate x⟩
  have hcases : r = fNaN ∨ isNaN r = false := by
    simp only [List.mem_cons, List.not_mem_nil, or_false] at hr
    rcases hr with rfl | rfl | rfl | rfl | rfl | rfl
    · exact fAdd_eq_fNaN_or x y
    · exact fAdd_eq_fNaN_or x (fNegate y)
    · exact eq_fNaN_or_not_isNaN (fMul_eq_fNaN_or_fPack x y)
    · exact eq_fNaN_or_not_isNaN (fDiv_eq_fNaN_or_fPack x y)
    · exact sinF_eq_fNaN_or x
    · exact cosF_eq_fNaN_or x
  exact hcases.resolve_right (by simp [hnan])

/-! roundHalfAway (R12). -/

theorem nearestInt_eq (x : F64) : nearestInt x = (2 * units x + 2 ^ 1074) / (2 ^ 1074 * 2) := by
  rw [nearestInt, show 2 ^ 1075 = 2 ^ 1074 * 2 by rw [← Nat.pow_succ]]

/-- Half a unit up and cut off, a magnitude is a natural number that binary64 holds: below 2^52 each one is, and from there on the
magnitude is itself an integer. -/
theorem roundMag_nearestInt {x : F64} (hx : isFinite x = true) :
    roundMag (nearestInt x * 2 ^ 1074) 1 < infMag ∧ magUnits (roundMag (nearestInt x * 2 ^ 1074) 1) = nearestInt x * 2 ^ 1074 := by
  have hp := Nat.two_pow_pos 1074
  rw [nearestInt_eq]
  rcases lt_or_ge (units x) (2 ^ 52 * 2 ^ 1074) with hlt | hge
  · apply magUnits_roundMag_nat
    generalize 2 ^ 1074 = p at hlt hp ⊢
    rw [Nat.div_lt_iff_lt_mul (by omega)]
    omega
  · obtain ⟨k, hk⟩ := two_pow_dvd_magUnits hge
    have hint : (2 * units x + 2 ^ 1074) / (2 ^ 1074 * 2) * 2 ^ 1074 = units x := by
      rw [units, hk]
      generalize 2 ^ 1074 = p at *
      rw [show 2 * (p * k) + p = p * (2 * k + 1) by ring, Nat.mul_div_mul_left _ _ hp, show (2 * k + 1) / 2 = k by omega, Nat.mul_comm]
    have hmag : fMag x < infMag := by simpa [isFinite] using hx
    have hexact := roundMag_exact (m := fMag x) Nat.one_pos hmag.le
    rw [Nat.mul_one] at hexact
    rw [hint, units, hexact]
    exact ⟨hmag, rfl⟩

theorem abs_fValue (x : F64) : |fValue x| = magValue (fMag x) := by
  rw [fValue_eq, abs_mul, abs_signFactor, one_mul, abs_of_nonneg (magValue_nonneg _)]

theorem floor_magValue_add_half (x : F64) : ⌊magValue (fMag x) + 1 / 2⌋ = (nearestInt x : ℤ) := by
  have h : magValue (fMag x) + 1 / 2 = ((2 * units x + 2 ^ 1074 : Nat) : ℚ) / (2 ^ 1074 * 2 : Nat) := by
    rw [magValue, units]
    push_cast [-Nat.reducePow]
    field_simp
  rw [h, Rat.floor_natCast_div_natCast, nearestInt_eq, Int.natCast_div]

/-- Settles O57: the nearest integer is a binary64 value, so packing it rounds nothing off. -/
theorem roundHalfAwayIsNearestInteger : Obligations.RoundHalfAwayIsNearestInteger := by
  intro x hx
  obtain ⟨hfin, hval⟩ := roundMag_nearestInt hx
  have hlt := hfin.trans (show infMag < 2 ^ 63 by decide)
  rw [roundHalfAway, if_pos hx, abs_fValue, abs_fValue, floor_magValue_add_half, isFinite_fPack hlt, fSignBit_fPack hlt, fMag_fPack hlt,
    magValue, hval]
  refine ⟨decide_eq_true hfin, rfl, ?_⟩
  rw [Nat.cast_mul, Nat.cast_pow, Nat.cast_ofNat, Int.cast_natCast, mul_div_cancel_right₀ _ (by positivity)]

/-! Special operands (R11, R17). -/

theorem isInf_fPack_infMag (neg : Bool) : isInf (fPack neg infMag) = true := by cases neg <;> decide

theorem isFinite_of_fMag_eq_zero {x : F64} (h : fMag x = 0) : isFinite x = true := by
  simp [isFinite, h, infMag]

theorem fKey_eq_zero_iff {x : F64} : fKey x = 0 ↔ fMag x = 0 := by
  cases h : fSignBit x <;> simp [fKey, h]

theorem fEq_fZero_iff {x : F64} : fEq x fZero = true ↔ fMag x = 0 := by
  obtain ⟨hz, hk⟩ : isNaN fZero = false ∧ fKey fZero = 0 := by decide
  have h0 : fMag x = 0 → isNaN x = false := fun h => isNaN_false_of_isFinite (isFinite_of_fMag_eq_zero h)
  simpa [fEq, hz, hk, fKey_eq_zero_iff] using h0

theorem isInf_fNegate (x : F64) : isInf (fNegate x) = isInf x := by simp only [isInf, fMag_fNegate]

theorem fAdd_of_sum_zero {x y : F64} (hx : isFinite x = true) (hy : isFinite y = true) (h : fValue x + fValue y = 0) :
    fAdd x y = if fSignBit x && fSignBit y then 0x8000000000000000#64 else 0 := by
  have hsum : signedUnits x + signedUnits y = 0 := by
    rw [fValue, fValue, ← add_div, div_eq_zero_iff, or_iff_left (by positivity)] at h
    exact_mod_cast h
  rw [fAdd_of_isFinite hx hy, if_pos hsum]
  cases fSignBit x && fSignBit y <;> rfl

theorem fMag_ne_zero_of_isInf {x : F64} (h : isInf x = true) : fMag x ≠ 0 := by
  rw [beq_iff_eq.1 h]
  decide

theorem fMul_isInf_zero {x y : F64} (hx : isInf x = true) (hy : fMag y = 0) : fMul x y = fNaN ∧ fMul y x = fNaN := by
  have hnx := isNaN_false_of_isInf hx
  have hny := isNaN_false_of_isFinite (isFinite_of_fMag_eq_zero hy)
  rw [fMul_of_isInf hnx hny (.inl hx), fMul_of_isInf hny hnx (.inr hx), if_pos (.inr hy), if_pos (.inl hy)]
  exact ⟨rfl, rfl⟩

theorem isInf_fMul {x y : F64} (hx : isInf x = true) (hny : isNaN y = false) (hy : fMag y ≠ 0) :
    isInf (fMul x y) = true ∧ isInf (fMul y x) = true := by
  have hnx := isNaN_false_of_isInf hx
  have hx0 := fMag_ne_zero_of_isInf hx
  rw [fMul_of_isInf hnx hny (.inl hx), fMul_of_isInf hny hnx (.inr hx), if_neg (not_or.2 ⟨hx0, hy⟩), if_neg (not_or.2 ⟨hy, hx0⟩)]
  exact ⟨isInf_fPack_infMag _, isInf_fPack_infMag _⟩

/-- Settles O60, each clause by the equation of the operation on that kind of operands. -/
theorem specialOperandResults : Obligations.SpecialOperandResults := by
  intro x y
  have hnan : isNaN fNaN = true := by decide
  refine ⟨fun h => ?_, fun hx hy => ?_, fun hx => ?_, fAdd_of_sum_zero,
    fSignBit_of_not_isNaN (fMul_eq_fNaN_or_fPack x y), fSignBit_of_not_isNaN (fDiv_eq_fNaN_or_fPack x y), fun hx hy => ?_,
    fun hx hny hy => ?_, fun hx hy => ?_, fun hx hy => ?_, fun hx hy => ?_, fun hx hy => ?_, fun hx hx0 hy => ?_⟩
  · rw [fAdd_of_isNaN h, fMul_of_isNaN h, fDiv_of_isNaN h]
    exact ⟨hnan, hnan, hnan⟩
  · rw [fAdd_of_isInf_left hx (isNaN_false_of_isFinite hy), isInf_false_of_isFinite hy, fAdd_of_isFinite_of_isInf hy hx]
    exact ⟨rfl, rfl⟩
  · have hneg := (isInf_fNegate x).trans hx
    rw [fAdd_of_isInf_left hx (isNaN_false_of_isInf hx), fAdd_of_isInf_left hx (isNaN_false_of_isInf hneg), hneg, fSignBit_fNegate]
    simp [hnan]
  · obtain ⟨hxy, hyx⟩ := fMul_isInf_zero hx (fEq_fZero_iff.1 hy)
    rw [hxy, hyx]
    exact ⟨hnan, hnan⟩
  · exact isInf_fMul hx hny fun h => by simp [fEq_fZero_iff.2 h] at hy
  · rw [fDiv_of_isInf_of_isInf hx hy, hnan]
  · rw [fDiv_of_isInf_of_isFinite hx hy, isInf_fPack_infMag]
  · rw [fDiv_of_isFinite_of_isInf hx hy, fEq_fZero_iff, fMag_fPack (by decide)]
  · rw [fEq_fZero_iff] at hx hy
    rw [fDiv_of_zero (isFinite_of_fMag_eq_zero hx) hy, if_pos hx, hnan]
  · rw [← Bool.not_eq_true, fEq_fZero_iff] at hx0
    rw [fDiv_of_zero hx (fEq_fZero_iff.1 hy), if_neg hx0, isInf_fPack_infMag]

end Sys2Proof.Machine
end

section
/-! The register map as read: at each offset the register of R21, after reset its reset column, after a store the value stored, and the
layouts of STATUS and ERR_CAUSE; the tick and the channel count. -/

namespace Sys2Proof.Machine

/-! The register map (R21). -/

theorem registerTable_eq_map (s : State) : registerTable s = Reg.all.map fun r => (r.offset, readReg r s) := rfl

theorem mem_registerTable_iff {s : State} {p : Offset × Word} : p ∈ registerTable s ↔ ∃ r : Reg, (r.offset, readReg r s) = p := by
  simp [registerTable_eq_map, Reg.mem_all]

/-- A read at a register's offset is recorded with what the register holds, and nothing else changes (R71). -/
theorem busRead_offset (r : Reg) (s : State) : busRead r.offset 8 s = s.emit (.read r.offset 8 (readReg r s) none) := by
  rw [busRead, readResult_offset]
  rfl

/-- Settles O59: the register table lists each register's offset with what a read of the register returns. -/
theorem eachOffsetReadsItsField : Obligations.EachOffsetReadsItsField := by
  intro s p rest hp ha
  obtain ⟨r, rfl⟩ := mem_registerTable_iff.1 hp
  refine ⟨?_, ?_, ?_⟩
  · simp only [step, ha, busRead_offset, State.emit, State.pop, List.tail_cons]
    rfl
  · rw [busTriple, readResult_offset]
  · rw [busTriples_append]
    rfl

/-- The reset column has the registers of the map but N_CHANNELS. -/
theorem mem_registerTable_reset_iff {p : Offset × Word} :
    p ∈ registerTable State.reset ↔ p = (0x028#10, nChannels.setWidth 64) ∨ p ∈ resetTable := by
  have hsplit : registerTable State.reset = resetTable.take 5 ++ (0x028#10, nChannels.setWidth 64) :: resetTable.drop 5 := rfl
  rw [hsplit, List.mem_append, List.mem_cons, or_left_comm, ← List.mem_append, List.take_append_drop]

theorem readResult_of_mem_registerTable {s : State} {p : Offset × Word} (h : p ∈ registerTable s) :
    readResult p.1 8 s = (p.2, none) := by
  obtain ⟨r, rfl⟩ := mem_registerTable_iff.1 h
  exact readResult_offset r s

theorem readResult_unmapped {a : Offset} (ha : a.toNat % 8 = 0) (h : ∀ r : Reg, r.offset ≠ a) (s : State) :
    readResult a 8 s = (0, some .busUnmapped) := by
  have hnone : Reg.ofOffset a = none := by simp [Reg.ofOffset, h]
  simp [readResult, misaligned, ha, hnone]

/-- Settles O48: the register table of the reset state is the reset column with N_CHANNELS. -/
theorem resetRegisterValues : Obligations.ResetRegisterValues := by
  refine ⟨fun p hp => ?_, readResult_offset .nChannels State.reset, fun a hal hn hmem => ?_⟩
  · exact readResult_of_mem_registerTable (mem_registerTable_reset_iff.2 (.inr hp))
  · refine readResult_unmapped hal (fun r hr => ?_) _
    obtain he | he := mem_registerTable_reset_iff.1 (mem_registerTable_iff.2 ⟨r, rfl⟩)
    · exact hn (hr ▸ congrArg Prod.fst he)
    · exact hmem (hr ▸ List.mem_map_of_mem he)

/-- Settles O26: the register shows the parameter, in 32 bits. -/
theorem channelCountIsConstant : Obligations.ChannelCountIsConstant := by
  intro s t
  have hlt := Config.channelsLessOne.isLt
  have hread : (readReg .nChannels s).toNat = Config.channelsLessOne.val + 1 := by
    simp only [readReg, nChannels, BitVec.toNat_setWidth, BitVec.toNat_ofNat]
    omega
  exact ⟨rfl, by omega, by omega⟩

/-- Settles O46, by RUNNING. -/
theorem tickIsLatchedWhileRunning : Obligations.TickIsLatchedWhileRunning := by
  intro s rest ha
  have hstep : step s = .next { s with
      tickPending := s.tickPending || s.running, agenda := rest, history := s.history ++ [.tick] } := by
    simp [step, ha, takeTick, State.pop]
  exact ⟨fun hr => by rw [hstep, hr, Bool.or_true], fun hr => by rw [hstep, hr, Bool.or_false]⟩

/-! Reading after a store (R22, R44). -/

/-- A store into a read-write register writes CTRL, a configuration register or an input register. -/
theorem storeReg_frame_of_rw {r : Reg} (hr : r.access = .rw) (v : Word) (s : State) :
    ∃ ct cf inp, storeReg r v s = { s with ctrl := ct, cfg := cf, inp := inp } := by
  cases r <;> cases hr <;> exact ⟨_, _, _, rfl⟩

/-- A store into a read-write register leaves what every other register reads as: one that is not read-write shows no field that the
store writes, and the read-write ones show fields of their own. -/
theorem readReg_storeReg_of_ne {r q : Reg} (hr : r.access = .rw) (hne : q ≠ r) (v : Word) (s : State) :
    readReg q (storeReg r v s) = readReg q s := by
  by_cases hq : q.access = .rw
  · cases q <;> cases hq <;> cases r <;> cases hr <;> simp [readReg, storeReg] at hne ⊢
  · obtain ⟨ct, cf, inp, hstore⟩ := storeReg_frame_of_rw hr v s
    rw [hstore]
    cases q <;> simp [Reg.access, readReg, statusWord] at hq ⊢

/-- A field of n bits reads as the low n bits of what was written to it. -/
theorem setWidth_setWidth_eq_and (n : Nat) (v : Word) : (v.setWidth n).setWidth 64 = v &&& BitVec.ofNat 64 (2 ^ n - 1) := by
  refine BitVec.eq_of_getLsbD_eq fun i hi => ?_
  simp only [BitVec.getLsbD_setWidth, BitVec.getLsbD_and, BitVec.getLsbD_ofNat, Nat.testBit_two_pow_sub_one, hi, decide_true,
    Bool.true_and, Bool.and_comm]

/-- Settles O22, by the register: the other ones, those with reserved bits, and those of 64 bits. -/
theorem storeThenReadRegister : Obligations.StoreThenReadRegister := by
  intro s r q v hr
  refine ⟨fun hne => readReg_storeReg_of_ne hr hne v s, ?_, ?_, fun hctrl hper hdead => ?_⟩
  · rintro rfl
    exact setWidth_setWidth_eq_and 2 v
  · rintro (rfl | rfl) <;> exact setWidth_setWidth_eq_and 32 v
  · cases r <;> cases hr <;> simp [readReg, storeReg] at hctrl hper hdead ⊢

/-! STATUS and ERR_CAUSE (R24 to R26). -/

/-- The bits of STATUS from bit 0 up to the last that is not reserved (R24, R25). -/
def statusBits (s : State) : List Bool :=
  [s.busy, s.running, s.seq.code.getLsbD 0, s.seq.code.getLsbD 1, s.seq.code.getLsbD 2, false, false, false, s.sticky.err,
    s.sticky.errMulti, false, false, false, false, false, false, s.sticky.dutySatHi, s.sticky.dutySatLo, s.sticky.angleRange,
    s.sticky.nonfinite, s.sticky.mapSat]

theorem getLsbD_statusWord (s : State) (i : Nat) : (statusWord s).getLsbD i = (statusBits s).getD i false := by
  rw [statusWord]
  iterate 12 rw [BitVec.getLsbD_append]
  by_cases hi : i < 21
  · interval_cases i <;> simp [statusBits, -BitVec.getLsbD_eq_getElem]
  · rw [List.getD_eq_default _ _ (Nat.not_lt.1 hi)]
    iterate 12 rw [if_neg (by omega)]
    exact BitVec.getLsbD_zero

/-- Settles O23, bit by bit; the code of SEQ is the three bits from bit 2 on, and the mask of the last clause has none of `statusBits`. -/
theorem statusLayout : Obligations.StatusLayout := by
  intro s
  have hseq : (statusWord s).extractLsb' 2 3 = s.seq.code := by
    refine BitVec.eq_of_getLsbD_eq fun i hi => ?_
    rw [BitVec.getLsbD_extractLsb', getLsbD_statusWord]
    interval_cases i <;> rfl
  have hreserved : statusWord s &&& 0xFFFFFFFFFFE0FCE0#64 = 0 := by
    have hmask : 0xFFFFFFFFFFE0FCE0#64 =
        -1#43 ++ 0#1 ++ 0#1 ++ 0#1 ++ 0#1 ++ 0#1 ++ -1#6 ++ 0#1 ++ 0#1 ++ -1#3 ++ 0#3 ++ 0#1 ++ 0#1 := by decide
    rw [hmask, statusWord]
    iterate 12 rw [BitVec.and_append]
    simp
  simp only [readReg, getLsbD_statusWord, hseq, hreserved]
  exact ⟨rfl, rfl, by cases s.seq <;> rfl, rfl, rfl, rfl, rfl, rfl, rfl, rfl, trivial⟩

theorem errCauseWord_lt (r : ErrRecord) : (errCauseWord (some r)).toNat < 2 ^ 19 := by
  refine Nat.lt_pow_two_of_testBit _ fun i hi => ?_
  rw [BitVec.testBit_toNat, errCauseWord]
  iterate 3 rw [BitVec.getLsbD_append, if_neg (by omega)]
  exact BitVec.getLsbD_zero

/-- Settles O24: each field of the record is a part of the word. -/
theorem errCauseLayout : Obligations.ErrCauseLayout := by
  intro s
  refine ⟨fun h => by rw [readReg, h]; rfl, fun r h => ?_⟩
  rw [readReg, h]
  refine ⟨?_, ?_, ?_, errCauseWord_lt r⟩
  · rw [errCauseWord, BitVec.extractLsb'_append_eq_right]
    cases r.cause <;> rfl
  · rw [errCauseWord, BitVec.extractLsb'_append_eq_of_le (by decide)]
    exact BitVec.extractLsb'_append_eq_right
  · rw [errCauseWord]
    iterate 3 rw [BitVec.getLsbD_append]
    simp

end Sys2Proof.Machine
end

section
/-! What the transitions keep: the records they do not read, the configuration that the updates do not read, the sticky bits, the history,
and the registers of the units. -/

namespace Sys2Proof.Machine

/-! A command's transition is one function of the state for each SEQ (R188). -/

/-- The transition of a command that R188 names in a SEQ, where it names one. -/
def transition (i : Instr) : Seq → State → State
  | .idle => accept i
  | .exec => complete ∘ bodyOf i
  | .acqGrid => acquireGrid
  | .acqPv => acquirePv
  | .compute => endCompute ∘ computeBody
  | .waitTick => leaveWaitTick

/-- A command that has a transition in a SEQ makes it from every state in that SEQ. -/
theorem exec_eq_transition {i : Instr} {s t u : State} (h : exec i s = .next t) (hu : u.seq = s.seq) :
    exec i u = .next (transition i s.seq u) := by
  obtain ⟨hs, -⟩ | ⟨hs, hc, hr, -⟩ | ⟨hs, hi, -⟩ | ⟨hs, hi, -⟩ | ⟨hs, hi, -⟩ | ⟨hs, rfl, -⟩ := exec_cases h <;>
    rw [hs] at hu ⊢
  · exact exec_idle i hu
  · exact exec_exec hu hc hr
  · exact exec_acqGrid hu hi
  · exact exec_acqPv hu hi
  · exact exec_compute hu hi
  · exact exec_waitTick hu

theorem eq_transition_of_exec {i : Instr} {s t : State} (h : exec i s = .next t) : t = transition i s.seq s :=
  Host.Outcome.next.inj (h.symm.trans (exec_eq_transition h rfl))

/-! No transition of a command reads the sticky bits, the error record or the history (R25, R49). -/

/-- No sticky bit. -/
def noSticky : Sticky where
  err := false
  errMulti := false
  dutySatHi := false
  dutySatLo := false
  angleRange := false
  nonfinite := false
  mapSat := false

@[simp] theorem stickyOr_noSticky (k : Sticky) : stickyOr k noSticky = k := by simp [stickyOr, noSticky]

theorem stickyOr_assoc (k d e : Sticky) : stickyOr (stickyOr k d) e = stickyOr k (stickyOr d e) := by
  simp [stickyOr, Bool.or_assoc]

/-- The state with other sticky bits, another error record and another history. -/
def State.withRecords (s : State) (k : Sticky) (e : Option ErrRecord) (h : List Event) : State :=
  { s with sticky := k, errCause := e, history := h }

/-- From s the transition f sets the sticky bits d and appends the events es, whatever the records are, and they change nothing else
that it does. -/
def Sets (f : State → State) (s : State) (d : Sticky) (es : List Event) : Prop :=
  ∀ k e h, f (s.withRecords k e h) = (f s).withRecords (stickyOr k d) e (h ++ es)

theorem sets_of_eq {f : State → State} {s : State} (h : ∀ k e l, f (s.withRecords k e l) = (f s).withRecords k e l) :
    Sets f s noSticky [] := by
  intro k e l
  rw [h, stickyOr_noSticky, List.append_nil]

theorem Sets.comp {f g : State → State} {s : State} {d d' : Sticky} {es es' : List Event} (hf : Sets f s d es)
    (hg : Sets g (f s) d' es') : Sets (g ∘ f) s (stickyOr d d') (es ++ es') := by
  intro k e h
  rw [Function.comp, hf, hg, stickyOr_assoc, List.append_assoc]
  rfl

/-! Every flag computation sets bits on top of those that are set (R25). -/

theorem stickyAfterPllInit_eq (c : CoefRegs) (k : Sticky) :
    stickyAfterPllInit c k = stickyOr k { noSticky with nonfinite := coefNonfinite c } := by
  simp [stickyAfterPllInit, stickyOr, noSticky]

theorem stickyAfterPll_eq (p : PllRegs) (k : Sticky) :
    stickyAfterPll p k = stickyOr k { noSticky with angleRange := !angleInRange p.angle, nonfinite := pllNonfinite p } := by
  simp [stickyAfterPll, stickyOr, noSticky]

theorem stickyAfterMppt_eq (n : MpptSnap) (policyB : Bool) (c : F64) (m : MpptRegs) (k : Sticky) :
    stickyAfterMppt n policyB c m k = stickyOr k
      { noSticky with dutySatHi := clampsHigh n c, dutySatLo := clampsLow n c, nonfinite := mpptNonfinite policyB m } := by
  simp [stickyAfterMppt, stickyOr, noSticky]

theorem stickyAfterMap_eq (saturated : Bool) (k : Sticky) :
    stickyAfterMap saturated k = stickyOr k { noSticky with mapSat := saturated } := by
  simp [stickyAfterMap, stickyOr, noSticky]

theorem exists_sets_pllUpdateBody (s : State) : ∃ d, Sets pllUpdateBody s d [] :=
  ⟨_, fun k e h => by rw [← stickyAfterPll_eq (pllNext s), List.append_nil]; rfl⟩

theorem exists_sets_mpptUpdateBody (s : State) : ∃ d, Sets mpptUpdateBody s d [] :=
  ⟨_, fun k e h => by
    rw [← stickyAfterMppt_eq s.mpptSnap s.mpptActB (mpptCandidate s) (mpptNext s), List.append_nil]; rfl⟩

theorem exists_sets_mapUpdateBody (s : State) : ∃ d, Sets mapUpdateBody s d [.setDuty (mapTicks s.mapSnap.per s.mppt.duty)] :=
  ⟨_, fun k e h => by rw [← stickyAfterMap_eq (mapSaturates s.mapSnap.per s.mppt.duty)]; rfl⟩

theorem exists_sets_bodyOf (i : Instr) (s : State) : ∃ d es, es.length ≤ 1 ∧ Sets (bodyOf i) s d es := by
  cases i with
  | nop | mpptInit | cycle | run => exact ⟨_, _, Nat.zero_le _, sets_of_eq fun _ _ _ => rfl⟩
  | pllInit =>
    exact ⟨_, [], Nat.zero_le _, fun k e h => by
      rw [← stickyAfterPllInit_eq (sogiCoefs (latchPllSnap s.cfg)), List.append_nil]; rfl⟩
  | mapInit =>
    exact ⟨noSticky, [.actConfig s.cfg.periodTicks s.cfg.deadTime], Nat.le_refl _, fun k e h => by rw [stickyOr_noSticky]; rfl⟩
  | pllUpdate => exact (exists_sets_pllUpdateBody s).imp fun d hd => ⟨_, Nat.zero_le _, hd⟩
  | mpptUpdate => exact (exists_sets_mpptUpdateBody s).imp fun d hd => ⟨_, Nat.zero_le _, hd⟩
  | mapUpdate => exact (exists_sets_mapUpdateBody s).imp fun d hd => ⟨_, Nat.le_refl _, hd⟩

theorem exists_sets_acquireGrid (s : State) : ∃ d es, es.length ≤ 1 ∧ Sets acquireGrid s d es := by
  rcases ha : s.agenda with - | ⟨m, rest⟩
  · exact ⟨_, _, Nat.zero_le _, sets_of_eq fun k e l => by simp [acquireGrid, State.withRecords, ha]⟩
  · cases m with
    | grid g => exact ⟨noSticky, [.grid g], Nat.le_refl _, fun k e l => by simp [acquireGrid, State.withRecords, ha]⟩
    | _ => exact ⟨_, _, Nat.zero_le _, sets_of_eq fun k e l => by simp [acquireGrid, State.withRecords, ha]⟩

theorem exists_sets_acquirePv (s : State) : ∃ d es, es.length ≤ 1 ∧ Sets acquirePv s d es := by
  rcases ha : s.agenda with - | ⟨m, rest⟩
  · exact ⟨_, _, Nat.zero_le _, sets_of_eq fun k e l => by simp [acquirePv, State.withRecords, ha]⟩
  · cases m with
    | pv v c => exact ⟨noSticky, [.pv v c], Nat.le_refl _, fun k e l => by simp [acquirePv, State.withRecords, ha]⟩
    | _ => exact ⟨_, _, Nat.zero_le _, sets_of_eq fun k e l => by simp [acquirePv, State.withRecords, ha]⟩

theorem sets_endCompute (s : State) : Sets endCompute s noSticky [] :=
  sets_of_eq fun k e l => by cases hm : s.mode <;> simp [endCompute, State.withRecords, complete, hm]

theorem sets_leaveWaitTick (s : State) : Sets leaveWaitTick s noSticky [] :=
  sets_of_eq fun k e l => by cases ht : s.tickPending <;> simp [leaveWaitTick, State.withRecords, ht]

/-- Every transition sets some sticky bits and appends at most one event, blind to the records. -/
theorem exists_sets_transition (i : Instr) (q : Seq) (s : State) : ∃ d es, es.length ≤ 1 ∧ Sets (transition i q) s d es := by
  cases q with
  | idle => exact ⟨_, _, Nat.zero_le _, sets_of_eq fun _ _ _ => rfl⟩
  | exec =>
    obtain ⟨d, es, hlen, hbody⟩ := exists_sets_bodyOf i s
    exact ⟨_, _, by simpa using hlen, hbody.comp (sets_of_eq fun _ _ _ => rfl)⟩
  | acqGrid => exact exists_sets_acquireGrid s
  | acqPv => exact exists_sets_acquirePv s
  | compute =>
    obtain ⟨d, hpll⟩ := exists_sets_pllUpdateBody s
    obtain ⟨d', hmppt⟩ := exists_sets_mpptUpdateBody (pllUpdateBody s)
    obtain ⟨d'', hmap⟩ := exists_sets_mapUpdateBody (mpptUpdateBody (pllUpdateBody s))
    exact ⟨_, _, Nat.le_refl _, ((hpll.comp hmppt).comp hmap).comp (sets_endCompute _)⟩
  | waitTick => exact ⟨_, _, Nat.zero_le _, sets_leaveWaitTick s⟩

/-- The transition sets and appends the same whatever the records hold, those of the state itself among them. -/
theorem exec_withRecords {i : Instr} {s t : State} (h : exec i s = .next t) :
    ∃ d es, es.length ≤ 1 ∧ t = t.withRecords (stickyOr s.sticky d) s.errCause (s.history ++ es) ∧
      ∀ k e l, exec i (s.withRecords k e l) = .next (t.withRecords (stickyOr k d) e (l ++ es)) := by
  obtain ⟨d, es, hlen, hsets⟩ := exists_sets_transition i s.seq s
  have ht := eq_transition_of_exec h
  refine ⟨d, es, hlen, ?_, fun k e l => ?_⟩
  · rw [ht, ← hsets]
    rfl
  · rw [exec_eq_transition h (u := s.withRecords k e l) rfl, hsets, ← ht]

/-- Settles O10, by `exec_withRecords`. -/
theorem flagsAreNeverRead : Obligations.FlagsAreNeverRead := by
  intro i s t h
  obtain ⟨d, es, -, hself, hall⟩ := exec_withRecords h
  exact ⟨d, es, congrArg (·.sticky) hself, congrArg (·.errCause) hself, congrArg (·.history) hself, hall⟩

/-! The updates read neither CTRL nor the configuration registers (R29, R241). -/

/-- The state with other configuration registers and another CTRL. -/
def State.withConfig (s : State) (c : ConfigRegs) (k : BitVec 2) : State := { s with cfg := c, ctrl := k }

theorem acquireGrid_withConfig (s : State) (c : ConfigRegs) (k : BitVec 2) :
    acquireGrid (s.withConfig c k) = (acquireGrid s).withConfig c k := by
  unfold acquireGrid State.withConfig
  dsimp only
  split <;> rfl

theorem acquirePv_withConfig (s : State) (c : ConfigRegs) (k : BitVec 2) :
    acquirePv (s.withConfig c k) = (acquirePv s).withConfig c k := by
  unfold acquirePv State.withConfig
  dsimp only
  split <;> rfl

theorem endCompute_withConfig (s : State) (c : ConfigRegs) (k : BitVec 2) :
    endCompute (s.withConfig c k) = (endCompute s).withConfig c k := by
  cases hm : s.mode <;> simp [endCompute, State.withConfig, complete, hm]

theorem leaveWaitTick_withConfig (s : State) (c : ConfigRegs) (k : BitVec 2) :
    leaveWaitTick (s.withConfig c k) = (leaveWaitTick s).withConfig c k := by
  cases ht : s.tickPending <;> simp [leaveWaitTick, State.withConfig, ht]

theorem bodyOf_withConfig {i : Instr} (hi : i ∈ [Instr.pllUpdate, .mpptUpdate, .mapUpdate, .cycle, .run]) (s : State) (c : ConfigRegs)
    (k : BitVec 2) : bodyOf i (s.withConfig c k) = (bodyOf i s).withConfig c k := by
  simp only [List.mem_cons, List.not_mem_nil, or_false] at hi
  obtain rfl | rfl | rfl | rfl | rfl := hi <;> rfl

theorem transition_withConfig {i : Instr} (hi : i ∈ [Instr.pllUpdate, .mpptUpdate, .mapUpdate, .cycle, .run]) (q : Seq) (s : State)
    (c : ConfigRegs) (k : BitVec 2) : transition i q (s.withConfig c k) = (transition i q s).withConfig c k := by
  cases q with
  | idle => rfl
  | exec => exact congrArg complete (bodyOf_withConfig hi s c k)
  | acqGrid => exact acquireGrid_withConfig s c k
  | acqPv => exact acquirePv_withConfig s c k
  | compute => exact endCompute_withConfig (computeBody s) c k
  | waitTick => exact leaveWaitTick_withConfig s c k

/-- Settles O11: each part of the transition leaves the configuration as it finds it. -/
theorem updatesReadNoConfiguration : Obligations.UpdatesReadNoConfiguration := by
  intro i s t c k hi h
  exact (exec_eq_transition h (u := s.withConfig c k) rfl).trans (by rw [transition_withConfig hi, ← eq_transition_of_exec h]; rfl)

/-! The sticky bits (R25, R248). -/

/-- The sticky bits after are those before with some set on top. -/
def StickyKept (k k' : Sticky) : Prop := ∃ d, k' = stickyOr k d

theorem StickyKept.rfl {k : Sticky} : StickyKept k k := ⟨noSticky, by simp⟩

theorem stickyKept_exec {i : Instr} {s t : State} (h : exec i s = .next t) : StickyKept s.sticky t.sticky := by
  obtain ⟨d, _, -, hself, -⟩ := exec_withRecords h
  exact ⟨d, congrArg (·.sticky) hself⟩

theorem stickyKept_raiseErr (c : Cause) (a : Offset) (w : Bool) (s : State) : StickyKept s.sticky (raiseErr c a w s).sticky :=
  ⟨{ noSticky with err := true, errMulti := s.sticky.err }, by simp [raiseErr_frame, stickyOr, noSticky]⟩

theorem stickyKept_recordErr (err : Option Cause) (a : Offset) (w : Bool) (s : State) :
    StickyKept s.sticky (recordErr err a w s).sticky := by
  cases err with
  | none => exact .rfl
  | some c => exact stickyKept_raiseErr c a w s

theorem stickyKept_busRead (a : Offset) (n : Nat) (s : State) : StickyKept s.sticky (busRead a n s).sticky :=
  stickyKept_recordErr _ a false s

theorem stickyKept_pollRead (a : Offset) (m w : Word) (s : State) : StickyKept s.sticky (pollRead a m w s).sticky := by
  obtain ⟨ms, h⟩ := pollRead_frame a m w s
  rw [h]
  exact stickyKept_busRead a 8 s

/-- A bus write that clears nothing leaves the sticky bits that are set. -/
theorem stickyKept_busWrite {act : WriteAction} (hact : act ≠ .clear) (a : Offset) (n : Nat) (v : Word) (s : State) :
    StickyKept s.sticky (busWrite act a n v s).sticky := by
  cases act with
  | refuse c => exact stickyKept_raiseErr c a true s
  | clear => exact absurd rfl hact
  | issue i => exact .rfl
  | store r =>
    obtain ⟨_, _, _, _, h⟩ := storeReg_frame r v s
    simp only [busWrite, h, State.emit_sticky]
    exact .rfl

theorem writeAction_ne_clear {s : State} {a : Offset} {n : Nat} {v : Word} {rest : List Move} (ha : s.agenda = .write a n v :: rest)
    (hs : statusWriteNext s = false) (u : State) : writeAction a n v u ≠ .clear := by
  intro hclear
  obtain ⟨rfl, rfl⟩ := writeAction_clear hclear
  simp [statusWriteNext, ha] at hs

/-- A step that is no reset and no STATUS write leaves the sticky bits that are set. -/
theorem stickyKept_step {s t : State} (hr : resetNext s = false) (hs : statusWriteNext s = false) (h : step s = .next t) :
    StickyKept s.sticky t.sticky := by
  rcases step_cases h with rfl | rfl | ⟨i, -, he | he⟩ | ⟨a, n, v, i, rest, -, -, he⟩ | ⟨a, n, v, rest, ha, rfl, -⟩ |
    ⟨a, n, rest, -, rfl⟩ | ⟨a, m, w, rest, -, rfl⟩ | ⟨rest, -, rfl⟩ | ⟨rest, ha, -⟩
  · exact .rfl
  · exact .rfl
  · exact stickyKept_exec he
  · exact stickyKept_exec (s := s.pop) he
  · exact stickyKept_exec (s := busWrite (.issue i) a n v s.pop) he
  · exact stickyKept_busWrite (writeAction_ne_clear ha hs s.pop) a n v s.pop
  · exact stickyKept_busRead a n s.pop
  · exact stickyKept_pollRead a m w s.pop
  · exact .rfl
  · simp [resetNext, ha] at hr

/-- An aligned 64-bit write to STATUS clears bits in every state, BUSY or not (R72, R203). -/
theorem writeAction_status (v : Word) (s : State) : writeAction 0x010#10 8 v s = .clear := rfl

theorem clearedSticky_eq (v : Word) (k : Sticky) :
    clearedSticky v k =
      { err := k.err && !v.getLsbD 8
        errMulti := k.errMulti && !(v.getLsbD 9 || v.getLsbD 8)
        dutySatHi := k.dutySatHi && !v.getLsbD 16
        dutySatLo := k.dutySatLo && !v.getLsbD 17
        angleRange := k.angleRange && !v.getLsbD 18
        nonfinite := k.nonfinite && !v.getLsbD 19
        mapSat := k.mapSat && !v.getLsbD 20 } := by
  rw [clearedSticky, Bool.not_or, Bool.and_comm (!v.getLsbD 9), Bool.and_assoc]

/-- Settles O6: what is set stays set (`stickyKept_step`), and the STATUS write is `clearStatus`. -/
theorem stickyBitsSurvive : Obligations.StickyBitsSurvive := by
  intro s t hr h
  refine ⟨fun hs => ?_, fun v rest ha => ?_⟩
  · obtain ⟨d, hd⟩ := stickyKept_step hr hs h
    rw [hd]
    simp +contextual [stickyOr]
  · have hstep : step s = .next (busWrite .clear 0x010#10 8 v s.pop) := by
      simp only [step, ha, hostWrite, writeAction_status]
    obtain rfl := Host.Outcome.next.inj (hstep.symm.trans h)
    refine ⟨clearedSticky_eq v s.sticky, rfl, ?_⟩
    simp [busWrite, clearStatus, State.emit, State.pop, WriteAction.error, ha]

/-! The history (R62, R231). -/

/-- At most one event is appended to the history, and none is taken out. -/
def AppendsAtMostOne (s t : State) : Prop := ∃ es : List Event, t.history = s.history ++ es ∧ es.length ≤ 1

theorem AppendsAtMostOne.of_eq {s t : State} (h : t.history = s.history) : AppendsAtMostOne s t := ⟨[], by simp [h], Nat.zero_le _⟩

theorem AppendsAtMostOne.of_append {s t : State} {e : Event} (h : t.history = s.history ++ [e]) : AppendsAtMostOne s t :=
  ⟨[e], h, Nat.le_refl _⟩

theorem appendsAtMostOne_exec {i : Instr} {s t : State} (h : exec i s = .next t) : AppendsAtMostOne s t := by
  obtain ⟨_, es, hlen, hself, -⟩ := exec_withRecords h
  exact ⟨es, congrArg (·.history) hself, hlen⟩

theorem busRead_history (a : Offset) (n : Nat) (s : State) :
    (busRead a n s).history = s.history ++ [.read a n (readResult a n s).1 (readResult a n s).2] := by
  obtain ⟨_, _, _, h⟩ := recordErr_frame (readResult a n s).2 a false s
  simp [busRead, h]

theorem busWrite_history (act : WriteAction) (a : Offset) (n : Nat) (v : Word) (s : State) :
    (busWrite act a n v s).history = s.history ++ [.write a n v act.error] := by
  cases act with
  | refuse c => simp [busWrite, raiseErr_frame]
  | clear => rfl
  | issue i => rfl
  | store r =>
    obtain ⟨_, _, _, _, h⟩ := storeReg_frame r v s
    simp [busWrite, h]

/-- Where the invariant holds, an issued command finds SEQ in IDLE, and its first transition is acceptance (R180, R203). -/
theorem eq_accept_of_issue {s t : State} {a : Offset} {n : Nat} {v : Word} {i : Instr} (hinv : MachineInv s)
    (hw : writeAction a n v s.pop = .issue i) (he : exec i (busWrite (.issue i) a n v s.pop) = .next t) :
    t = accept i (s.pop.emit (.write a n v none)) := by
  obtain ⟨-, -, hbusy, -⟩ := writeAction_issue hw
  have hidle : s.seq = .idle := by
    by_contra hne
    exact absurd (hinv.busy_iff.2 hne) (by simpa using hbusy)
  exact Host.Outcome.next.inj (he.symm.trans (exec_idle i hidle))

/-- An issued command appends nothing to the event of its write, since it is only accepted. -/
theorem appendsAtMostOne_step {s t : State} (hinv : MachineInv s) (h : step s = .next t) : AppendsAtMostOne s t := by
  rcases step_cases h with rfl | rfl | ⟨i, -, he | he⟩ | ⟨a, n, v, i, rest, -, hw, he⟩ | ⟨a, n, v, rest, -, rfl, -⟩ |
    ⟨a, n, rest, -, rfl⟩ | ⟨a, m, w, rest, -, rfl⟩ | ⟨rest, -, rfl⟩ | ⟨rest, -, rfl⟩
  · exact .of_eq rfl
  · exact .of_eq rfl
  · exact appendsAtMostOne_exec he
  · exact appendsAtMostOne_exec (s := s.pop) he
  · obtain rfl := eq_accept_of_issue hinv hw he
    exact .of_append rfl
  · exact .of_append (busWrite_history _ a n v s.pop)
  · exact .of_append (busRead_history a n s.pop)
  · obtain ⟨ms, hpoll⟩ := pollRead_frame a m w s.pop
    rw [hpoll]
    exact .of_append (busRead_history a 8 s.pop)
  · exact .of_append rfl
  · exact .of_append rfl

/-- Settles O5, by `appendsAtMostOne_step`. -/
theorem historyOnlyGrows : Obligations.HistoryOnlyGrows := fun _ _ hinv h => appendsAtMostOne_step hinv h

/-! The registers of the units (R33, R39, R45): only the bodies of the commands write them. -/

/-- ACTIVE, the PLL state, the coefficients and the snapshots. -/
def State.unitRegs (s : State) : BitVec 2 × PllRegs × CoefRegs × PllSnap × MpptSnap × MapSnap :=
  (s.active, s.pll, s.coef, s.pllSnap, s.mpptSnap, s.mapSnap)

/-! The bus, the acquisitions, the wait for a tick and the end of a compute step do not write them. -/

theorem unitRegs_busRead (a : Offset) (n : Nat) (s : State) : (busRead a n s).unitRegs = s.unitRegs := by
  obtain ⟨_, _, _, _, h⟩ := busRead_frame a n s
  rw [h]
  rfl

theorem unitRegs_pollRead (a : Offset) (m w : Word) (s : State) : (pollRead a m w s).unitRegs = s.unitRegs := by
  obtain ⟨_, h⟩ := pollRead_frame a m w s
  rw [h]
  exact unitRegs_busRead a 8 s

theorem unitRegs_busWrite (act : WriteAction) (a : Offset) (n : Nat) (v : Word) (s : State) :
    (busWrite act a n v s).unitRegs = s.unitRegs := by
  cases act with
  | refuse c =>
    simp only [busWrite, raiseErr_frame]
    rfl
  | clear => rfl
  | issue i => rfl
  | store r =>
    obtain ⟨_, _, _, _, h⟩ := storeReg_frame r v s
    simp only [busWrite, h]
    rfl

theorem unitRegs_acquireGrid (s : State) : (acquireGrid s).unitRegs = s.unitRegs := by
  unfold acquireGrid
  split <;> rfl

theorem unitRegs_acquirePv (s : State) : (acquirePv s).unitRegs = s.unitRegs := by
  unfold acquirePv
  split <;> rfl

theorem unitRegs_leaveWaitTick (s : State) : (leaveWaitTick s).unitRegs = s.unitRegs := by
  unfold leaveWaitTick
  split <;> rfl

theorem unitRegs_endCompute (s : State) : (endCompute s).unitRegs = s.unitRegs := by
  unfold endCompute
  split <;> rfl

theorem unitRegs_bodyOf_pop (i : Instr) (s : State) : (bodyOf i s.pop).unitRegs = (bodyOf i s).unitRegs := by cases i <;> rfl

/-- From s, command i executes its body in EXEC, or computes as CYCLE or RUN do, and t has the unit registers that this leaves. -/
def Executes (i : Instr) (s t : State) : Prop :=
  (s.seq = .exec ∧ t.unitRegs = (bodyOf i s).unitRegs) ∨
    (s.seq = .compute ∧ (i = .cycle ∨ i = .run) ∧ t.unitRegs = (computeBody s).unitRegs)

/-- Acceptance, an acquisition and the wait for a tick leave the registers of the units. -/
theorem unitRegs_exec {i : Instr} {s t : State} (h : exec i s = .next t) : t.unitRegs = s.unitRegs ∨ Executes i s t := by
  obtain ⟨-, rfl⟩ | ⟨hs, -, -, rfl⟩ | ⟨-, -, rfl⟩ | ⟨-, -, rfl⟩ | ⟨hs, hi, rfl⟩ | ⟨-, -, rfl⟩ := exec_cases h
  · exact .inl rfl
  · exact .inr (.inl ⟨hs, rfl⟩)
  · exact .inl (unitRegs_acquireGrid s)
  · exact .inl (unitRegs_acquirePv s)
  · exact .inr (.inr ⟨hs, hi, unitRegs_endCompute _⟩)
  · exact .inl (unitRegs_leaveWaitTick s)

/-- A delivery that is asked for leaves the registers of the units. -/
theorem unitRegs_runPending {s t : State} (hs : s.seq = .acqGrid ∨ s.seq = .acqPv) (h : runPending s = .next t) :
    t.unitRegs = s.unitRegs := by
  unfold runPending at h
  split at h
  · refine (unitRegs_exec h).resolve_right fun hex => ?_
    rcases hs with hs | hs <;> simp [Executes, hs] at hex
  · cases h

/-- A step that is no reset leaves the registers of the units, or the core's own turn executes the pending command. -/
theorem unitRegs_step {s t : State} (hinv : MachineInv s) (hr : resetNext s = false) (h : step s = .next t) :
    t.unitRegs = s.unitRegs ∨ (coreNext s = true ∧ ∃ i, s.pending = some i ∧ Executes i s t) := by
  unfold step at h
  split at h
  case h_1 ha =>
    obtain rfl | ⟨i, hp, he⟩ := coreStep_cases h
    · exact .inl rfl
    · exact (unitRegs_exec he).imp_right fun hex => ⟨by simp [coreNext, ha], i, hp, hex⟩
  case h_2 ha =>
    obtain rfl | ⟨i, hp, he⟩ := coreStep_cases h
    · exact .inl rfl
    · refine (unitRegs_exec he).imp_right fun hex => ⟨by simp [coreNext, ha], i, hp, ?_⟩
      rwa [Executes, unitRegs_bodyOf_pop] at hex
  case h_3 a n _ _ =>
    obtain rfl := Host.Outcome.next.inj h
    exact .inl (unitRegs_busRead a n s.pop)
  case h_4 a n v _ _ =>
    obtain ⟨i, hw, he⟩ | ⟨rfl, -⟩ := hostWrite_cases h
    · obtain rfl := eq_accept_of_issue hinv hw he
      exact .inl rfl
    · exact .inl (unitRegs_busWrite _ a n v s.pop)
  case h_5 a m w _ _ =>
    obtain rfl := Host.Outcome.next.inj h
    exact .inl (unitRegs_pollRead a m w s.pop)
  case h_6 =>
    split at h
    · next hreq => exact .inl (unitRegs_runPending (.inl (by simpa [State.gridReq] using hreq)) h)
    · obtain rfl := Host.Outcome.next.inj h
      exact .inl rfl
  case h_7 =>
    split at h
    · next hreq => exact .inl (unitRegs_runPending (.inr (by simpa [State.pvReq] using hreq)) h)
    · obtain rfl := Host.Outcome.next.inj h
      exact .inl rfl
  case h_8 =>
    obtain rfl := Host.Outcome.next.inj h
    exact .inl rfl
  case h_9 ha => simp [resetNext, ha] at hr

/-! Which of them each body writes. -/

theorem getLsbD_one_latchPllAct (ctrl active : BitVec 2) : (latchPllAct ctrl active).getLsbD 1 = active.getLsbD 1 := by
  rw [latchPllAct, BitVec.getLsbD_append]
  simp

theorem getLsbD_zero_latchMpptAct (ctrl active : BitVec 2) : (latchMpptAct ctrl active).getLsbD 0 = active.getLsbD 0 := by
  rw [latchMpptAct, BitVec.getLsbD_append]
  simp

theorem unitRegs_eq_iff {s t : State} :
    t.unitRegs = s.unitRegs ↔
      t.active = s.active ∧ t.pll = s.pll ∧ t.coef = s.coef ∧ t.pllSnap = s.pllSnap ∧ t.mpptSnap = s.mpptSnap ∧
        t.mapSnap = s.mapSnap := by
  simp [State.unitRegs]

/-- Settles O8: among the bodies that the core's turn executes, only those of the PLL commands and of the compute step write the PLL
state. -/
theorem pllStateWrittenOnlyByPllSteps : Obligations.PllStateWrittenOnlyByPllSteps := by
  intro s t hinv hr h hne
  obtain hkeep | ⟨hcore, i, hp, ⟨hs, hregs⟩ | ⟨hs, hi, -⟩⟩ := unitRegs_step hinv hr h
  · obtain ⟨-, hpll, -⟩ := unitRegs_eq_iff.1 hkeep
    exact absurd hpll hne
  · obtain ⟨-, hpll, -⟩ := unitRegs_eq_iff.1 hregs
    refine ⟨hcore, .inl ⟨hs, ?_⟩⟩
    cases i with
    | pllInit => exact .inl hp
    | pllUpdate => exact .inr hp
    | _ => exact absurd hpll hne
  · exact ⟨hcore, .inr ⟨hs, by simpa [hp] using hi⟩⟩

/-- Settles O7: among the bodies that the core's turn executes, only that of the matching INIT writes its snapshot and its bit of ACTIVE. -/
theorem snapshotsChangeOnlyAtInit : Obligations.SnapshotsChangeOnlyAtInit := by
  intro s t hinv hr h
  obtain hkeep | ⟨hcore, i, hp, ⟨hs, hregs⟩ | ⟨hs, hi, hregs⟩⟩ := unitRegs_step hinv hr h
  · obtain ⟨hact, -, hcoef, hpll, hmppt, hmap⟩ := unitRegs_eq_iff.1 hkeep
    exact ⟨.inr ⟨hcoef, hpll, by rw [hact]⟩, .inr ⟨hmppt, by rw [hact]⟩, .inr hmap⟩
  · obtain ⟨hact, -, hcoef, hpll, hmppt, hmap⟩ := unitRegs_eq_iff.1 hregs
    rw [hact, hcoef, hpll, hmppt, hmap]
    cases i with
    | pllInit => exact ⟨.inl ⟨hcore, hs, hp⟩, .inr ⟨rfl, getLsbD_one_latchPllAct _ _⟩, .inr rfl⟩
    | mpptInit => exact ⟨.inr ⟨rfl, rfl, getLsbD_zero_latchMpptAct _ _⟩, .inl ⟨hcore, hs, hp⟩, .inr rfl⟩
    | mapInit => exact ⟨.inr ⟨rfl, rfl, rfl⟩, .inr ⟨rfl, rfl⟩, .inl ⟨hcore, hs, hp⟩⟩
    | _ => exact ⟨.inr ⟨rfl, rfl, rfl⟩, .inr ⟨rfl, rfl⟩, .inr rfl⟩
  · obtain ⟨hact, -, hcoef, hpll, hmppt, hmap⟩ := unitRegs_eq_iff.1 hregs
    rw [hact, hcoef, hpll, hmppt, hmap]
    exact ⟨.inr ⟨rfl, rfl, rfl⟩, .inr ⟨rfl, rfl⟩, .inr rfl⟩

end Sys2Proof.Machine
end

section
/-! The host bus (20_memory.md): what a read returns, the checks of a write in their order with the effect of each, and the byte view. -/

namespace Sys2Proof.Machine

/-! Where a transaction is checked: alignment and mapping (R43, R71, R72). -/

theorem misaligned_eq_true_iff {a : Offset} {n : Nat} : misaligned a n = true ↔ n ≠ 8 ∨ a.toNat % 8 ≠ 0 := by
  simp [misaligned]

theorem Reg.ofOffset_eq_none {a : Offset} (h : ∀ r : Reg, r.offset ≠ a) : Reg.ofOffset a = none := by
  simp [Reg.ofOffset, h]

/-! Reads (R71). -/

section
variable {s : State} {a : Offset} {n : Nat} {rest : List Move}

theorem readResult_misaligned (h : n ≠ 8 ∨ a.toNat % 8 ≠ 0) (s : State) : readResult a n s = (0, some .busAlign) := by
  rw [readResult, misaligned_eq_true_iff.2 h, if_pos rfl]

/-- No register shows the agenda or the history. -/
theorem readReg_agenda_history (r : Reg) (s : State) (ms : List Move) (h : List Event) :
    readReg r { s with agenda := ms, history := h } = readReg r s := by
  cases r <;> rfl

theorem readResult_agenda (a : Offset) (n : Nat) (s : State) (ms : List Move) :
    readResult a n { s with agenda := ms } = readResult a n s := by
  simp only [readResult, fun r => readReg_agenda_history r s ms s.history]

/-- Neither the agenda nor the history bears on an error that is taken. -/
theorem raiseErr_agenda_emit (c : Cause) (a : Offset) (w : Bool) (s : State) (ms : List Move) (e : Event) :
    (raiseErr c a w { s with agenda := ms }).emit e = { raiseErr c a w s with agenda := ms, history := s.history ++ [e] } := by
  simp only [raiseErr_frame, State.emit]

theorem step_read (ha : s.agenda = .read a n :: rest) : step s = .next (busRead a n { s with agenda := rest }) := by
  simp only [step, ha, State.pop, List.tail_cons]

/-- A read that raises an error takes that error and has no other effect. -/
theorem step_read_error {w : Word} {c : Cause} (ha : s.agenda = .read a n :: rest) (hres : readResult a n s = (w, some c)) :
    step s = .next { raiseErr c a false s with agenda := rest, history := s.history ++ [.read a n w (some c)] } := by
  rw [step_read ha, busRead, readResult_agenda, hres, ← raiseErr_agenda_emit]
  rfl

/-- A read at a register's offset returns the register; only its event is added. -/
theorem step_read_offset {r : Reg} (ha : s.agenda = .read r.offset 8 :: rest) :
    step s = .next { s with agenda := rest, history := s.history ++ [.read r.offset 8 (readReg r s) none] } := by
  rw [step_read ha, busRead_offset, readReg_agenda_history r s rest s.history]
  rfl

end

/-- Settles O20, by the error that `readResult` gives, if it gives one. -/
theorem busReadReturns : Obligations.BusReadReturns := by
  intro s a n rest hs
  refine ⟨fun h => step_read_error hs (readResult_misaligned h s),
    fun hn ha h => step_read_error hs (by rw [hn, readResult_unmapped ha h s]), ?_⟩
  rintro r rfl rfl
  exact ⟨step_read_offset hs, fun q => readReg_agenda_history q s _ _, fun hr => by rw [hr]; rfl⟩

/-! The command word's two checks (R92, R94), in the order of R92. -/

theorem rsvField_eq_zero_iff {w : Word} : rsvField w = 0 ↔ w.toNat < 256 := by
  rw [← BitVec.toNat_inj, rsvField, BitVec.extractLsb'_toNat, Nat.shiftRight_eq_div_pow]
  simp only [BitVec.ofNat_eq_ofNat, BitVec.toNat_zero]
  omega

theorem toNat_opcodeField {w : Word} (h : w.toNat < 256) : (opcodeField w).toNat = w.toNat := by
  rw [opcodeField, BitVec.extractLsb'_toNat, Nat.shiftRight_zero, Nat.mod_eq_of_lt h]

theorem instrOfOpcode_eq_none {op : Byte} (h : 8 < op.toNat) : instrOfOpcode op = none := by
  unfold instrOfOpcode
  split <;> simp_all

theorem decodeWord_reserved {w : Word} (h : 256 ≤ w.toNat) : decodeWord w = .error .reserved := by
  rw [decodeWord, if_pos (mt rsvField_eq_zero_iff.1 (Nat.not_lt.2 h))]

theorem decodeWord_illegal {w : Word} (hlo : 8 < w.toNat) (hhi : w.toNat < 256) : decodeWord w = .error .illegal := by
  have hop : instrOfOpcode (opcodeField w) = none := instrOfOpcode_eq_none (by rwa [toNat_opcodeField hhi])
  simp [decodeWord, rsvField_eq_zero_iff.2 hhi, hop]

/-! What a write does, check by check (R72). -/

section
variable {s : State} {a : Offset} {n : Nat} {v : Word} {r : Reg}

theorem writeAction_misaligned (h : n ≠ 8 ∨ a.toNat % 8 ≠ 0) (v : Word) (s : State) : writeAction a n v s = .refuse .busAlign := by
  rw [writeAction, misaligned_eq_true_iff.2 h, if_pos rfl]

theorem writeAction_unmapped (ha : a.toNat % 8 = 0) (h : ∀ r : Reg, r.offset ≠ a) (v : Word) (s : State) :
    writeAction a 8 v s = .refuse .busUnmapped := by
  simp [writeAction, misaligned, ha, Reg.ofOffset_eq_none h]

/-- A 64-bit write at a register's offset passes the checks of alignment and mapping. -/
theorem writeAction_offset (r : Reg) (v : Word) (s : State) : writeAction r.offset 8 v s = registerWriteAction r v s := by
  simp [writeAction, Reg.misaligned_offset, Reg.ofOffset_offset]

theorem registerWriteAction_ro (h : r.access = .ro) (v : Word) (s : State) : registerWriteAction r v s = .refuse .writeRo := if_pos h

theorem registerWriteAction_status (v : Word) (s : State) : registerWriteAction .status v s = .clear := rfl

theorem registerWriteAction_busy (hro : r.access ≠ .ro) (hst : r ≠ .status) (hb : s.busy = true) (v : Word) :
    registerWriteAction r v s = .refuse .busy := by
  simp [registerWriteAction, hro, hst, hb]

theorem registerWriteAction_cmd_error {e : DecodeError} (hb : s.busy = false) (hv : decodeWord v = .error e) :
    registerWriteAction .cmd v s = .refuse (causeOfDecodeError e) := by
  simp [registerWriteAction, Reg.access, hb, hv]

theorem registerWriteAction_cmd_ok {i : Instr} (hb : s.busy = false) (hv : decodeWord v = .ok i) :
    registerWriteAction .cmd v s = .issue i := by
  simp [registerWriteAction, Reg.access, hb, hv]

theorem registerWriteAction_mpptDuty (hb : s.busy = false) :
    registerWriteAction .mpptDuty v s = if dutyInRange v then .store .mpptDuty else .refuse .dutyRange := by
  cases hd : dutyInRange v <;> simp [registerWriteAction, Reg.access, hb, hd]

theorem registerWriteAction_rw (hrw : r.access = .rw) (hb : s.busy = false) (v : Word) : registerWriteAction r v s = .store r := by
  have hne : ∀ q : Reg, q.access ≠ .rw → r ≠ q := fun q hq h => hq (h ▸ hrw)
  simp [registerWriteAction, hrw, hb, hne .status (by decide), hne .cmd (by decide), hne .mpptDuty (by decide)]

theorem dutyInRange_iff : dutyInRange v = true ↔ fLe fZero v = true ∧ fLe v fOne = true := Bool.and_eq_true_iff

/-- The read-only offsets of the map (R21). -/
theorem Reg.access_eq_ro_iff (r : Reg) :
    r.access = .ro ↔ r.offset = 0x018#10 ∨ r.offset = 0x020#10 ∨ r.offset = 0x028#10 ∨ (0x100 ≤ r.offset.toNat ∧ r.offset.toNat ≤ 0x1D0) ∨
      r.offset = 0x200#10 ∨ r.offset = 0x208#10 ∨ r.offset = 0x240#10 := by
  cases r <;> decide

end

/-! The step of a write, by what the write does. -/

theorem writeAction_agenda (a : Offset) (n : Nat) (v : Word) (s : State) (ms : List Move) :
    writeAction a n v { s with agenda := ms } = writeAction a n v s := rfl

section
variable {s : State} {a : Offset} {n : Nat} {v : Word} {rest : List Move} (ha : s.agenda = .write a n v :: rest)
include ha

theorem step_write : step s = hostWrite a n v { s with agenda := rest } := by
  simp only [step, ha, State.pop, List.tail_cons]

theorem step_write_refuse {c : Cause} (hact : writeAction a n v s = .refuse c) :
    step s = .next { raiseErr c a true s with agenda := rest, history := s.history ++ [.write a n v (some c)] } := by
  simp only [step_write ha, hostWrite, writeAction_agenda, hact, busWrite, raiseErr_agenda_emit]
  rfl

theorem step_write_clear (hact : writeAction a n v s = .clear) :
    step s = .next { clearStatus v s with agenda := rest, history := s.history ++ [.write a n v none] } := by
  simp only [step_write ha, hostWrite, writeAction_agenda, hact]
  rfl

theorem step_write_issue {i : Instr} (hact : writeAction a n v s = .issue i) :
    step s = exec i { s with agenda := rest, history := s.history ++ [.write a n v none] } := by
  simp only [step_write ha, hostWrite, writeAction_agenda, hact]
  rfl

theorem step_write_store {r : Reg} (hact : writeAction a n v s = .store r) :
    step s = .next { storeReg r v s with agenda := rest, history := s.history ++ [.write a n v none] } := by
  simp only [step_write ha, hostWrite, writeAction_agenda, hact]
  cases r <;> rfl

end

/-- Settles O21, each clause by the check of `writeAction` that decides and the step of the action it gives. -/
theorem busWriteChecksInOrder : Obligations.BusWriteChecksInOrder := by
  intro s a n v rest hs
  refine ⟨fun h => step_write_refuse hs (writeAction_misaligned h v s),
    fun hn ha h => step_write_refuse hs (by rw [hn, writeAction_unmapped ha h v s]), ?_⟩
  rintro r rfl rfl
  have hact := writeAction_offset r v s
  refine ⟨r.access_eq_ro_iff, fun hro => ?_, ?_, fun hro hst hb => ?_, ?_, ?_, ?_, ?_, ?_, fun hrw hb => ?_⟩
  · exact step_write_refuse hs (hact.trans (registerWriteAction_ro hro v s))
  · rintro rfl
    exact step_write_clear hs hact
  · exact step_write_refuse hs (hact.trans (registerWriteAction_busy hro hst hb v))
  · rintro rfl hb hv
    exact step_write_refuse hs (hact.trans (registerWriteAction_cmd_error hb (decodeWord_reserved hv)))
  · rintro rfl hb hlo hhi
    exact step_write_refuse hs (hact.trans (registerWriteAction_cmd_error hb (decodeWord_illegal hlo hhi)))
  · rintro i rfl hb hv
    exact step_write_issue hs (hact.trans (registerWriteAction_cmd_ok hb hv))
  · rintro rfl hb hv
    rw [← dutyInRange_iff] at hv
    exact step_write_refuse hs (by rw [hact, registerWriteAction_mpptDuty hb, if_neg hv])
  · rintro rfl hb hlo hhi
    exact step_write_store hs (by rw [hact, registerWriteAction_mpptDuty hb, if_pos (dutyInRange_iff.2 ⟨hlo, hhi⟩)])
  · exact step_write_store hs (hact.trans (registerWriteAction_rw hrw hb v))

/-! The byte view (R73). -/

theorem Reg.offset_mod_eight (r : Reg) : r.offset.toNat % 8 = 0 := by
  simpa [misaligned] using r.misaligned_offset

theorem toNat_add_lane {a : Offset} {k : Nat} (ha : a.toNat % 8 = 0) (hk : k < 8) :
    (a + BitVec.ofNat 10 k).toNat = a.toNat + k := by
  rw [BitVec.toNat_add, BitVec.toNat_ofNat]
  omega

/-- The mask of the byte view takes a lane's offset back to the aligned one below it. -/
theorem add_lane_and_mask {a : Offset} {k : Nat} (ha : a.toNat % 8 = 0) (hk : k < 8) : (a + BitVec.ofNat 10 k) &&& 0x3F8#10 = a := by
  rw [show 0x3F8#10 = BitVec.allOnes 10 <<< 3 by decide, ← BitVec.shiftLeft_ushiftRight, ← BitVec.toNat_inj, BitVec.toNat_shiftLeft,
    BitVec.toNat_ushiftRight, toNat_add_lane ha hk, Nat.shiftLeft_eq, Nat.shiftRight_eq_div_pow]
  omega

/-- Settles O25: of the lane's offset the low three bits are the lane and the others the register's offset. -/
theorem byteViewIsLittleEndian : Obligations.ByteViewIsLittleEndian := by
  intro s r k hk
  have hlane : (r.offset.toNat + k) % 8 = k := by have := r.offset_mod_eight; omega
  rw [State.byteView, add_lane_and_mask r.offset_mod_eight hk, Reg.ofOffset_offset, toNat_add_lane r.offset_mod_eight hk, hlane]
  rfl

end Sys2Proof.Machine
end

section
/-! The command word (30_encoding.md): it decodes exactly where it is an encoding, it crosses the byte form of the bus and the bits of the
opcode table unchanged, and the step of its CMD write runs it. -/

namespace Sys2Proof

/-! The opcode map (R93). -/

theorem instrOfOpcode_eq_some_iff {op : Byte} {i : Instr} : instrOfOpcode op = some i ↔ op = opcodeOf i := by
  refine ⟨fun h => ?_, fun h => ?_⟩
  · unfold instrOfOpcode at h
    split at h <;> cases h <;> exact BitVec.eq_of_toNat_eq ‹_›
  · rw [h]
    cases i <;> rfl

theorem exists_instrOfOpcode {op : Byte} (h : op.toNat ≤ 8) : ∃ i, instrOfOpcode op = some i := by
  interval_cases hop : op.toNat <;> simp [instrOfOpcode, hop]

@[simp] theorem toNat_encode (i : Instr) : (encode i).toNat = (opcodeOf i).toNat :=
  BitVec.toNat_setWidth_of_le (by decide)

/-! The word (R91, R92). -/

section
variable {w : Word} {i : Instr}

theorem decodeWord_eq_ok_iff : decodeWord w = .ok i ↔ rsvField w = 0 ∧ instrOfOpcode (opcodeField w) = some i := by
  by_cases h : rsvField w = 0
  · cases hop : instrOfOpcode (opcodeField w) <;> simp [decodeWord, h, hop]
  · rw [decodeWord, if_pos h]
    exact iff_of_false nofun fun hw => h hw.1

/-- Below 256 a word is its OPCODE field; from there on it is reserved, and no encoding reaches that far. -/
theorem decodeWord_eq_ok_iff_eq_encode : decodeWord w = .ok i ↔ w = encode i := by
  rw [← BitVec.toNat_inj, toNat_encode]
  rcases Nat.lt_or_ge w.toNat 256 with h | h
  · rw [decodeWord_eq_ok_iff, Machine.rsvField_eq_zero_iff, instrOfOpcode_eq_some_iff, ← BitVec.toNat_inj, Machine.toNat_opcodeField h,
      and_iff_right h]
  · have hop : (opcodeOf i).toNat < 256 := (opcodeOf i).isLt
    simp only [Machine.decodeWord_reserved h, reduceCtorEq, false_iff]
    omega

theorem decodeWord_encode (i : Instr) : decodeWord (encode i) = .ok i := decodeWord_eq_ok_iff_eq_encode.2 rfl

theorem exists_decodeWord_ok (h : w.toNat ≤ 8) : ∃ i, decodeWord w = .ok i := by
  have hlt : w.toNat < 256 := by omega
  obtain ⟨i, hi⟩ := exists_instrOfOpcode (op := opcodeField w) (by rwa [Machine.toNat_opcodeField hlt])
  exact ⟨i, decodeWord_eq_ok_iff.2 ⟨Machine.rsvField_eq_zero_iff.2 hlt, hi⟩⟩

end

/-! The byte form (R73, R96) and the bits of the opcode table, for every word. -/

theorem lanesOf_eq (w : Word) :
    lanesOf w = [byteLane w 0, byteLane w 1, byteLane w 2, byteLane w 3, byteLane w 4, byteLane w 5, byteLane w 6, byteLane w 7] := rfl

theorem wordOfLanes_byteLane (w : Word) :
    wordOfLanes (byteLane w 0) (byteLane w 1) (byteLane w 2) (byteLane w 3) (byteLane w 4) (byteLane w 5) (byteLane w 6)
      (byteLane w 7) = w := by
  simp only [wordOfLanes, byteLane, BitVec.extractLsb'_append_extractLsb'_eq_extractLsb']
  exact BitVec.extractLsb'_eq_self

/-- A word's bytes decode as the word does, and what follows them is left. -/
theorem decode_lanesOf_append (w : Word) (rest : List Byte) : decode (lanesOf w ++ rest) = (decodeWord w).map (·, rest) := by
  simp only [lanesOf_eq, List.cons_append, List.nil_append, decode, wordOfLanes_byteLane]
  cases decodeWord w <;> rfl

theorem ofNat_mod_two_pow (n w : Nat) : BitVec.ofNat n (w % 2 ^ n) = BitVec.ofNat n w := by
  simp [← BitVec.toNat_inj]

theorem decodeTableWord_eq_some_iff {w : Nat} {i : Instr} :
    decodeTableWord 64 w = some i ↔ decodeWord (BitVec.ofNat 64 w) = .ok i := by
  rw [decodeTableWord, tableBytes, ofNat_mod_two_pow, ← List.append_nil (lanesOf _), decode_lanesOf_append]
  cases decodeWord (BitVec.ofNat 64 w) <;> simp [Except.map]

/-- Settles O13: decoding inverts the encoding on words, and the byte form of a word decodes as the word. -/
theorem commandWordHasOneMeaning : Obligations.CommandWordHasOneMeaning := by
  refine ⟨fun w i => decodeWord_eq_ok_iff_eq_encode, fun i rest _ => ?_⟩
  rw [encodeBytes, decode_lanesOf_append, decodeWord_encode]
  rfl

/-- Settles O14, by the range of the word in which each of the decoder's checks answers. -/
theorem badWordsRejectedByName : Obligations.BadWordsRejectedByName := by
  refine fun w => ⟨Machine.decodeWord_reserved, Machine.decodeWord_illegal, fun h => ?_⟩
  obtain ⟨i, hi⟩ := exists_decodeWord_ok h
  exact ⟨i, hi, by rw [decodeWord_eq_ok_iff_eq_encode.1 hi, toNat_encode]⟩

/-- Settles O15: the nine words are the encodings of the nine commands. -/
theorem specWordsDecode : Obligations.SpecWordsDecode :=
  ⟨decodeWord_encode .nop, decodeWord_encode .pllInit, decodeWord_encode .mpptInit, decodeWord_encode .mapInit,
    decodeWord_encode .pllUpdate, decodeWord_encode .mpptUpdate, decodeWord_encode .mapUpdate, decodeWord_encode .cycle,
    decodeWord_encode .run⟩

namespace Machine

section
variable {s : State} {rest : List Move}

/-- A write to CMD of a word that decodes, while not BUSY, is exec of that command with the write taken and recorded. -/
theorem step_write_cmd {w : Word} {i : Instr} (ha : s.agenda = .write Reg.cmd.offset 8 w :: rest) (hb : s.busy = false)
    (hw : decodeWord w = .ok i) :
    step s = exec i { s with agenda := rest, history := s.history ++ [.write Reg.cmd.offset 8 w none] } :=
  step_write_issue ha ((writeAction_offset .cmd w s).trans (registerWriteAction_cmd_ok hb hw))

/-- A poll of a register is a read of it, and where the field differs the poll comes again behind the core's turn. -/
theorem step_poll_offset {r : Reg} {m v : Word} (ha : s.agenda = .poll r.offset m v :: rest) :
    step s = .next { s with
      agenda := if readReg r s &&& m = v then rest else .core :: .poll r.offset m v :: rest
      history := s.history ++ [.read r.offset 8 (readReg r s) none] } := by
  have hread : readReg r s.pop = readReg r s := readReg_agenda_history r s s.agenda.tail s.history
  simp only [step, ha, pollRead, readResult_offset, busRead_offset, hread]
  split <;> simp [State.emit, State.push, State.pop, ha]

end

/-- Settles O17: the table's bits are the word itself, and its CMD write is at the head of the agenda. -/
theorem fetchWordIsTheNextCommand : Obligations.FetchWordIsTheNextCommand := by
  intro s w i hb hw
  rw [State.withFetchWord, ofNat_mod_two_pow]
  exact step_write_cmd rfl hb (decodeTableWord_eq_some_iff.1 hw)

/-- Settles O51, by the two outcomes of the comparison in `step_poll_offset`. -/
theorem pollReadsAgain : Obligations.PollReadsAgain := by
  intro s r m v rest ha
  exact ⟨fun h => by rw [step_poll_offset ha, if_pos h], fun h => by rw [step_poll_offset ha, if_neg h]⟩

end Machine

end Sys2Proof
end

section
/-! The PLL commands: PLL_INIT and PLL_UPDATE register by register, the two flags of an update, the wrap of the angle, the open loop of
zero gains, and the sine and cosine units. -/

namespace Sys2Proof.Machine

/-! Values under rounding (R11): a result lies between any two finite values that its exact value lies between. -/

theorem abs_fValue_lt {x : F64} (hx : isFinite x = true) : |fValue x| < 2 ^ 1024 - 2 ^ 970 := by
  have hmag : fMag x < infMag := by simpa [isFinite] using hx
  have hround : roundMag (magUnits (fMag x) * 1) 1 < infMag := by rwa [roundMag_exact Nat.one_pos hmag.le]
  have hunits := (lt_overflowBound_iff Nat.one_pos).1 ((roundMag_lt_infMag_iff Nat.one_pos).1 hround)
  rw [Nat.mul_one, Nat.cast_one, div_one] at hunits
  rwa [abs_fValue, magValue]

theorem RoundsTo.mem_Icc {v : ℚ} {r lo hi : F64} (h : RoundsTo v r) (hlo : isFinite lo = true) (hhi : isFinite hi = true)
    (hv : v ∈ Set.Icc (fValue lo) (fValue hi)) : isFinite r = true ∧ fValue r ∈ Set.Icc (fValue lo) (fValue hi) := by
  obtain ⟨hfin, -, hnear⟩ := h
  obtain ⟨hvlo, hvhi⟩ := hv
  have hbound : |v| < 2 ^ 1024 - 2 ^ 970 :=
    abs_lt.2 ⟨(abs_lt.1 (abs_fValue_lt hlo)).1.trans_le hvlo, hvhi.trans_lt (abs_lt.1 (abs_fValue_lt hhi)).2⟩
  have hr := hfin.2 hbound
  have hnlo := (hnear hr lo hlo).1
  have hnhi := (hnear hr hi hhi).1
  rw [abs_of_nonneg (sub_nonneg.2 hvlo)] at hnlo
  rw [abs_of_nonpos (sub_nonpos.2 hvhi)] at hnhi
  exact ⟨hr, by linarith [le_abs_self (v - fValue r)], by linarith [neg_abs_le (v - fValue r)]⟩

/-! The sine and cosine units (R118). -/

theorem isFinite_fOfFields (f : Config.FiniteFields) : isFinite (fOfFields f) = true := by
  have hexp := f.2.1.isLt
  have hfrac := f.2.2.isLt
  have hlt : f.2.1.val * 2 ^ 52 + f.2.2.toNat < infMag := by
    unfold infMag
    omega
  rw [fOfFields, isFinite_fPack (hlt.trans (by decide)), decide_eq_true hlt]

theorem isFinite_sinF {x : F64} (hx : isFinite x = true) : isFinite (sinF x) = true := by
  rw [sinF, if_pos hx]
  split
  · decide
  · exact isFinite_fOfFields _

theorem isFinite_cosF {x : F64} (hx : isFinite x = true) : isFinite (cosF x) = true := by
  rw [cosF, if_pos hx]
  split
  · decide
  · exact isFinite_fOfFields _

theorem sinF_cosF_of_not_isFinite {x : F64} (hx : isFinite x = false) : sinF x = fNaN ∧ cosF x = fNaN := by
  have hne : x ≠ fZero := by
    rintro rfl
    exact absurd hx (by decide)
  simp [sinF, cosF, hne, hx]

theorem abs_fValue_sub_le {r : F64} {y : ℝ} (hr : isFinite r = true) (hy : |y| ≤ 1) :
    |((fValue r : ℚ) : ℝ) - y| ≤ ((2 ^ 1024 - 2 ^ 970 : ℚ) : ℝ) + 1 := by
  refine (abs_sub _ _).trans (add_le_add ?_ hy)
  rw [← Rat.cast_abs]
  exact Rat.cast_le.2 (abs_fValue_lt hr).le

/-- Settles O58: a finite result and a value in [-1, 1] are apart by less than the bound of the finite values and 1. -/
theorem trigUnitProperties : Obligations.TrigUnitProperties :=
  ⟨by rw [sinF]; rfl, by rw [cosF]; rfl, fun _ => sinF_cosF_of_not_isFinite, fun _ hx => ⟨isFinite_sinF hx, isFinite_cosF hx⟩,
    _, fun _ hx => ⟨abs_fValue_sub_le (isFinite_sinF hx) (Real.abs_sin_le_one _),
      abs_fValue_sub_le (isFinite_cosF hx) (Real.abs_cos_le_one _)⟩⟩

/-! The flags (R110, R117, R121). -/

theorem coefNonfinite_iff {c : CoefRegs} :
    coefNonfinite c = true ↔ ∃ x ∈ [c.b0, c.b2, c.a1, c.a2, c.qb0, c.qb1, c.qb2], isFinite x = false := by
  simp [coefNonfinite, or_assoc]

theorem pllNonfinite_iff {p : PllRegs} :
    pllNonfinite p = true ↔
      ∃ x ∈ [p.freq, p.angle, p.sin, p.cos, p.qerr, p.derr, p.lf0, p.integ, p.u0, p.ip0, p.qd0], isFinite x = false := by
  simp [pllNonfinite, or_assoc]

theorem angleInRange_iff {a : F64} : angleInRange a = true ↔ fGe a fZero = true ∧ fLt a twoPi = true := Bool.and_eq_true_iff

/-! PLL_INIT (R110, R111). -/

theorem getLsbD_zero_latchPllAct (ctrl active : BitVec 2) : (latchPllAct ctrl active).getLsbD 0 = ctrl.getLsbD 0 := by
  rw [latchPllAct, BitVec.getLsbD_append]
  simp

/-- Settles O27: the fields are those of `pllInitBody`, completed. -/
theorem pllInitLatchesAndDerives : Obligations.PllInitLatchesAndDerives := by
  intro s hs
  refine ⟨_, exec_exec hs (by decide) (by decide), rfl, getLsbD_zero_latchPllAct _ _, getLsbD_one_latchPllAct _ _, ?_,
    _, _, _, _, _, rfl, rfl, rfl, rfl, rfl, rfl, rfl, rfl, rfl, rfl, rfl, rfl⟩
  rw [← coefNonfinite_iff, ← Bool.or_eq_true]
  rfl

/-! PLL_UPDATE (R112 to R121). -/

section
variable {s : State}

theorem exec_pllUpdate (hs : s.seq = .exec) : exec .pllUpdate s = .next (complete (pllUpdateBody s)) :=
  exec_exec hs (by decide) (by decide)

theorem pllNext_of_strategyA (h : s.active.getLsbD 0 = false) :
    pllNext s = pllStepA s.pllSnap s.coef s.inp.sampleIn s.pll := by
  simp [pllNext, State.pllActB, h, -BitVec.getLsbD_eq_getElem]

theorem pllNext_of_strategyB (h : s.active.getLsbD 0 = true) : pllNext s = pllStepB s.pllSnap s.inp.sampleIn s.pll := by
  simp [pllNext, State.pllActB, h, -BitVec.getLsbD_eq_getElem]

/-- The frequency is formed under either strategy from the nominal one and the correction (R115, R120). -/
theorem pllNext_freq (s : State) : (pllNext s).freq = fAdd s.pllSnap.fn (pllNext s).lf0 := by
  unfold pllNext
  split <;> rfl

theorem pllNext_lf0_of_strategyA (h : s.active.getLsbD 0 = false) :
    (pllNext s).lf0 = fAdd (fAdd s.pll.lf0 (fMul s.pllSnap.b0 (pllNext s).qerr)) (fMul s.pllSnap.b1 s.pll.qerr) := by
  rw [pllNext_of_strategyA h]
  rfl

theorem pllNext_integ_of_strategyB (h : s.active.getLsbD 0 = true) :
    (pllNext s).integ = fAdd s.pll.integ (fMul (fMul s.pllSnap.ki (pllNext s).qerr) s.pllSnap.ts) := by
  rw [pllNext_of_strategyB h]
  rfl

theorem pllNext_lf0_of_strategyB (h : s.active.getLsbD 0 = true) :
    (pllNext s).lf0 = fAdd (fMul s.pllSnap.kp (pllNext s).qerr) (pllNext s).integ := by
  rw [pllNext_of_strategyB h]
  rfl

/-- PHASE ends the update under either strategy (R116). -/
theorem pllNext_angle (s : State) :
    (pllNext s).angle = wrapAngle (fAdd s.pll.angle (phaseIncrement s.pllSnap (pllNext s).freq)) := by
  unfold pllNext
  split <;> rfl

end

/-- Settles O28: the registers of `pllStepA`. -/
theorem pllUpdateStrategyA : Obligations.PllUpdateStrategyA := by
  intro s hs hact
  refine ⟨_, exec_pllUpdate hs, ?_⟩
  rw [pllUpdateBody, pllNext_of_strategyA hact]
  exact ⟨rfl, rfl, rfl, rfl, rfl, rfl, rfl, rfl, rfl, rfl, rfl, rfl, rfl, rfl, rfl, rfl, rfl, ⟨_, rfl, rfl⟩, rfl, rfl⟩

/-- Settles O29: the registers of `pllStepB`. -/
theorem pllUpdateStrategyB : Obligations.PllUpdateStrategyB := by
  intro s hs hact
  refine ⟨_, exec_pllUpdate hs, ?_⟩
  rw [pllUpdateBody, pllNext_of_strategyB hact]
  exact ⟨rfl, rfl, rfl, rfl, rfl, rfl, rfl, rfl, rfl, rfl, rfl, rfl, rfl, rfl, rfl, rfl, rfl, ⟨_, rfl, rfl⟩, rfl, rfl⟩

/-- Settles O30: each flag is or-ed with its check of the registers left. -/
theorem pllUpdateFlags : Obligations.PllUpdateFlags := by
  intro s hs
  refine ⟨_, exec_pllUpdate hs, ?_, ?_⟩
  · rw [← angleInRange_iff, Bool.not_eq_true, ← Bool.not_eq_true', ← Bool.or_eq_true]
    rfl
  · rw [← pllNonfinite_iff, ← Bool.or_eq_true]
    rfl

/-! The wrap of the angle (R124). -/

/-- The largest binary64 below TWO_PI. -/
def predTwoPi : F64 := 0x401921FB54442D17#64

/-- Twice the largest binary64 below TWO_PI. -/
def twicePredTwoPi : F64 := 0x402921FB54442D17#64

theorem fValue_lt_twoPi_iff {a : F64} : fValue a < fValue twoPi ↔ fValue a ≤ fValue predTwoPi := by
  have hpred : fKey twoPi = fKey predTwoPi + 1 := by decide
  rw [fValue_lt_iff, fValue_le_iff, hpred, Int.lt_add_one_iff]

theorem fValue_twicePredTwoPi : fValue twicePredTwoPi = 2 * fValue predTwoPi := by
  have hunits : signedUnits twicePredTwoPi = 2 * signedUnits predTwoPi := by decide +kernel
  rw [fValue, hunits, Int.cast_mul, mul_div_assoc]
  rfl

theorem fValue_fZero : fValue fZero = 0 := by
  rw [fValue, show signedUnits fZero = 0 by decide, Int.cast_zero, zero_div]

theorem fGe_iff_fValue {x y : F64} (hx : isFinite x = true) (hy : isFinite y = true) : fGe x y = true ↔ fValue y ≤ fValue x := by
  obtain ⟨-, -, -, hge, -⟩ := (comparisonsAreOfValues x y).1 hx hy
  exact hge

theorem isFinite_of_angleInRange {a : F64} (h : angleInRange a = true) : isFinite a = true := by
  obtain ⟨hlo, hhi⟩ : -(infMag : ℤ) < fKey fZero ∧ fKey twoPi < infMag := by decide
  simp only [angleInRange, fGe, fLe, fLt, Bool.and_eq_true, decide_eq_true_eq] at h
  obtain ⟨⟨-, hge⟩, -, hlt⟩ := h
  exact isFinite_iff_abs_fKey.2 (abs_lt.2 ⟨hlo.trans_le hge, hlt.trans hhi⟩)

theorem angleInRange_iff_fValue {a : F64} :
    angleInRange a = true ↔ isFinite a = true ∧ 0 ≤ fValue a ∧ fValue a < fValue twoPi := by
  have hvalues : isFinite a = true → (angleInRange a = true ↔ 0 ≤ fValue a ∧ fValue a < fValue twoPi) := fun hfin => by
    obtain ⟨hlt, -⟩ := (comparisonsAreOfValues a twoPi).1 hfin (by decide)
    rw [angleInRange_iff, fGe_iff_fValue hfin (by decide), hlt, fValue_fZero]
  exact ⟨fun h => ⟨isFinite_of_angleInRange h, (hvalues (isFinite_of_angleInRange h)).1 h⟩, fun ⟨hfin, h⟩ => (hvalues hfin).2 h⟩

/-- The rounded sum of two angles in range is at most twice the largest of them, so one subtraction brings it back into range. -/
theorem angleInRange_wrapAngle {x inc : F64} (hx : angleInRange x = true) (hinc : angleInRange inc = true) :
    angleInRange (wrapAngle (fAdd x inc)) = true := by
  obtain ⟨hxfin, hx0, hxlt⟩ := angleInRange_iff_fValue.1 hx
  obtain ⟨hifin, hi0, hilt⟩ := angleInRange_iff_fValue.1 hinc
  have hpred : fValue predTwoPi < fValue twoPi := fValue_lt_twoPi_iff.2 le_rfl
  rw [fValue_lt_twoPi_iff] at hxlt hilt
  obtain ⟨hafin, ha0, hale⟩ := (roundsTo_fAdd hxfin hifin).mem_Icc (lo := fZero) (hi := twicePredTwoPi) (by decide) (by decide)
    (by rw [fValue_fZero, fValue_twicePredTwoPi]; constructor <;> linarith)
  rw [fValue_fZero] at ha0
  rw [fValue_twicePredTwoPi] at hale
  have htwoPi : isFinite twoPi = true := by decide
  unfold wrapAngle
  split
  · next hge =>
    rw [fGe_iff_fValue hafin htwoPi] at hge
    obtain ⟨hfin, h0, hle⟩ := (roundsTo_fSub hafin htwoPi).mem_Icc (lo := fZero) (hi := predTwoPi) (by decide) (by decide)
      (by rw [fValue_fZero]; constructor <;> linarith)
    exact angleInRange_iff_fValue.2 ⟨hfin, fValue_fZero ▸ h0, fValue_lt_twoPi_iff.2 hle⟩
  · next hlt =>
    rw [fGe_iff_fValue hafin htwoPi, not_le] at hlt
    exact angleInRange_iff_fValue.2 ⟨hafin, ha0, hlt⟩

/-- PLL_UPDATE about to execute on the reset registers with the nominal frequency fn. -/
def updateAtNominal (fn : F64) : State :=
  { State.reset with seq := .exec, pending := some .pllUpdate, busy := true, pllSnap := { State.reset.pllSnap with fn := fn } }

/-- Settles O31: the wrap lemma, and from angle 0 the nominal frequencies -50.0 and 2^20, whose increments are negative and above
2 * TWO_PI. -/
theorem angleStaysInRange : Obligations.AngleStaysInRange := by
  refine ⟨fun s hs => ⟨_, exec_pllUpdate hs, fun hge hlt hige hilt => ?_⟩,
    ⟨updateAtNominal 0xC049000000000000#64, _, rfl, by decide, by decide, rfl, by decide +kernel, by decide +kernel⟩,
    ⟨updateAtNominal 0x4130000000000000#64, _, rfl, by decide, by decide, rfl, by decide +kernel, by decide +kernel⟩⟩
  have hangle : angleInRange (pllNext s).angle = true := by
    rw [pllNext_angle]
    exact angleInRange_wrapAngle (angleInRange_iff.2 ⟨hge, hlt⟩) (angleInRange_iff.2 ⟨hige, hilt⟩)
  obtain ⟨hge', hlt'⟩ := angleInRange_iff.1 hangle
  refine ⟨hge', hlt', ?_⟩
  change (s.sticky.angleRange || !angleInRange (pllNext s).angle) = s.sticky.angleRange
  rw [hangle, Bool.not_true, Bool.or_false]

/-! The open loop of zero gains (R127). -/

theorem fMag_fMul_of_zero {x y : F64} (hx : fMag x = 0) (hy : isFinite y = true) : fMag (fMul x y) = 0 := by
  have hu : units x = 0 := by rw [units, hx]; decide
  rw [fMul_of_isFinite (isFinite_of_fMag_eq_zero hx) hy, hu, Nat.zero_mul, roundMag_zero (Nat.two_pow_pos _), fMag_fPack (by decide)]

theorem fValue_of_fMag_zero {x : F64} (h : fMag x = 0) : fValue x = 0 := by
  rw [fValue_eq, h, magValue_zero, mul_zero]

/-- The sum of two zeros, one of them +0, is +0. -/
theorem fAdd_zeros {x y : F64} (hx : fMag x = 0) (hy : fMag y = 0) (h : (fSignBit x && fSignBit y) = false) : fAdd x y = fZero := by
  rw [fAdd_of_sum_zero (isFinite_of_fMag_eq_zero hx) (isFinite_of_fMag_eq_zero hy)
    (by rw [fValue_of_fMag_zero hx, fValue_of_fMag_zero hy, add_zero]), h]
  rfl

theorem fAdd_fZero_left {x : F64} (hx : fMag x = 0) : fAdd fZero x = fZero :=
  fAdd_zeros (by decide) hx (Bool.and_eq_false_iff.2 (.inl (by decide)))

theorem fAdd_fZero_right {x : F64} (hx : fMag x = 0) : fAdd x fZero = fZero :=
  fAdd_zeros hx (by decide) (Bool.and_eq_false_iff.2 (.inr (by decide)))

/-- A finite value keeps its value where +0 is added. -/
theorem fEq_fAdd_fZero {x : F64} (hx : isFinite x = true) : fEq (fAdd x fZero) x = true := by
  have hsum : fValue x + fValue fZero = fValue x := by rw [fValue_fZero, add_zero]
  obtain ⟨hfin, hge, hle⟩ := (roundsTo_fAdd hx (y := fZero) (by decide)).mem_Icc hx hx ⟨hsum.ge, hsum.le⟩
  rw [fEq_iff (isNaN_false_of_isFinite hfin) (isNaN_false_of_isFinite hx), ← fValue_eq_iff]
  exact le_antisymm hle hge

theorem fEq_freq_of_lf0_eq_fZero {s : State} (hfn : isFinite s.pllSnap.fn = true) (h : (pllNext s).lf0 = fZero) :
    fEq (pllNext s).freq s.pllSnap.fn = true := by
  rw [pllNext_freq, h]
  exact fEq_fAdd_fZero hfn

/-- Settles O32: each product with a zero gain is a zero, and +0 with zeros added stays +0. -/
theorem zeroGainsRunOpenLoop : Obligations.ZeroGainsRunOpenLoop := by
  have hzero : fMag fZero = 0 := by decide
  intro s hs hfn
  refine ⟨fun hact hb0 hb1 hlf hq1 => ⟨_, exec_pllUpdate hs, fun (hq : isFinite (pllNext s).qerr = true) => ?_⟩,
    fun hact hkp hki hinteg hts => ⟨_, exec_pllUpdate hs, fun (hq : isFinite (pllNext s).qerr = true) => ?_⟩⟩
  · have hlf0 : (pllNext s).lf0 = fZero := by
      rw [pllNext_lf0_of_strategyA hact, hlf, hb0, hb1, fAdd_fZero_left (fMag_fMul_of_zero hzero hq),
        fAdd_fZero_left (fMag_fMul_of_zero hzero hq1)]
    exact ⟨hlf0, fEq_freq_of_lf0_eq_fZero hfn hlf0⟩
  · have hinteg0 : (pllNext s).integ = fZero := by
      rw [pllNext_integ_of_strategyB hact, hinteg, hki, fAdd_fZero_left (fMag_fMul_of_zero (fMag_fMul_of_zero hzero hq) hts)]
    have hlf0 : (pllNext s).lf0 = fZero := by
      rw [pllNext_lf0_of_strategyB hact, hinteg0, hkp, fAdd_fZero_right (fMag_fMul_of_zero hzero hq)]
    exact ⟨hinteg0, hlf0, fEq_freq_of_lf0_eq_fZero hfn hlf0⟩

end Sys2Proof.Machine
end

section
/-! The MPPT commands: MPPT_INIT, the candidate of either policy, the clamp, the flags of an update and the bounds it keeps. -/

namespace Sys2Proof.Machine

/-! MPPT_INIT (R150). -/

theorem getLsbD_one_latchMpptAct (ctrl active : BitVec 2) : (latchMpptAct ctrl active).getLsbD 1 = ctrl.getLsbD 1 := by
  rw [latchMpptAct, BitVec.getLsbD_append]
  simp

/-- Settles O33: the fields are those of `mpptInitBody`, completed. -/
theorem mpptInitLatches : Obligations.MpptInitLatches := fun _ hs =>
  ⟨_, exec_exec hs (by decide) (by decide), rfl, getLsbD_one_latchMpptAct _ _, getLsbD_zero_latchMpptAct _ _⟩

/-! The sign of a value (R12): the four answers exclude each other. -/

theorem fSign_eq_neg_iff {x : F64} : fSign x = .neg ↔ fLt x fZero = true := by
  unfold fSign
  split_ifs with hneg <;> simp [hneg]

theorem fSign_eq_pos_iff {x : F64} : fSign x = .pos ↔ fGt x fZero = true := by
  unfold fSign
  split_ifs with hneg hpos
  · have hkey : fKey x < fKey fZero := by
      simp only [fLt, Bool.and_eq_true, decide_eq_true_eq] at hneg
      exact hneg.2
    simp [fGt, fLt, hkey.not_gt]
  all_goals simp [hpos]

theorem fSign_eq_zero_iff {x : F64} : fSign x = .zero ↔ fEq x fZero = true := by
  constructor
  · intro h
    unfold fSign at h
    split_ifs at h with _ _ heq
    exact heq
  · intro h
    have hkey : fKey x = fKey fZero := by
      simp only [fEq, Bool.and_eq_true, decide_eq_true_eq] at h
      exact h.2
    simp [fSign, fLt, fGt, h, hkey]

theorem fSign_eq_none_iff {x : F64} : fSign x = .none ↔ isNaN x = true := by
  rcases hx : isNaN x with - | -
  · have hzero : isNaN fZero = false := by decide
    have htri := lt_trichotomy (fKey x) (fKey fZero)
    rw [← fLt_iff hx hzero, ← fEq_iff hx hzero, ← fLt_iff hzero hx] at htri
    rcases htri with h | h | h
    · simp [fSign_eq_neg_iff.2 h]
    · simp [fSign_eq_zero_iff.2 h]
    · simp [fSign_eq_pos_iff.2 h]
  · simp [fSign, fLt, fGt, fEq, hx]

theorem Sign.zero_or_none {g : Sign} (h : ¬(g = .neg ∨ g = .pos)) : g = .zero ∨ g = .none := by
  cases g <;> simp at h ⊢

/-! The candidate of either policy (R153, R155). -/

section
variable {n : MpptSnap} {v p : F64} {m : MpptRegs}

theorem candidateA_of_dV_neg (hP : fSign (fSub p m.prevP) = .neg ∨ fSign (fSub p m.prevP) = .pos)
    (hV : fSign (fSub v m.prevV) = .neg) : candidateA n v p m = fSub m.duty n.delta := by
  rcases hP with hP | hP <;> simp [candidateA, hP, hV]

theorem candidateA_of_dV_pos (hP : fSign (fSub p m.prevP) = .neg ∨ fSign (fSub p m.prevP) = .pos)
    (hV : fSign (fSub v m.prevV) = .pos) : candidateA n v p m = fAdd m.duty n.delta := by
  rcases hP with hP | hP <;> simp [candidateA, hP, hV]

theorem candidateA_of_dP_unsigned (hP : fSign (fSub p m.prevP) = .zero ∨ fSign (fSub p m.prevP) = .none) :
    candidateA n v p m = m.duty := by
  rcases hP with hP | hP <;> simp [candidateA, hP]

theorem candidateA_of_dV_unsigned (hV : fSign (fSub v m.prevV) = .zero ∨ fSign (fSub v m.prevV) = .none) :
    candidateA n v p m = m.duty := by
  rcases hV with hV | hV <;> unfold candidateA <;> split <;> simp [hV]

/-- The decision table as one conditional on the signs. -/
theorem candidateA_eq (n : MpptSnap) (v p : F64) (m : MpptRegs) :
    candidateA n v p m =
      if (fSign (fSub p m.prevP) = .neg ∨ fSign (fSub p m.prevP) = .pos) ∧ fSign (fSub v m.prevV) = .neg then fSub m.duty n.delta
      else if (fSign (fSub p m.prevP) = .neg ∨ fSign (fSub p m.prevP) = .pos) ∧ fSign (fSub v m.prevV) = .pos then
        fAdd m.duty n.delta
      else m.duty := by
  split_ifs with hdown hup
  · exact candidateA_of_dV_neg hdown.1 hdown.2
  · exact candidateA_of_dV_pos hup.1 hup.2
  · by_cases hP : fSign (fSub p m.prevP) = .neg ∨ fSign (fSub p m.prevP) = .pos
    · exact candidateA_of_dV_unsigned (Sign.zero_or_none fun hV => hV.elim (fun h => hdown ⟨hP, h⟩) fun h => hup ⟨hP, h⟩)
    · exact candidateA_of_dP_unsigned (Sign.zero_or_none hP)

end

section
variable {s : State}

theorem mpptCandidate_of_policyA (h : s.active.getLsbD 1 = false) :
    mpptCandidate s = candidateA s.mpptSnap s.inp.pvV (pvPower s) s.mppt := if_neg (Bool.eq_false_iff.1 h)

theorem mpptCandidate_of_policyB (h : s.active.getLsbD 1 = true) :
    mpptCandidate s = candidateB s.mpptSnap (pvPower s) s.mppt := if_pos h

/-- Under either policy an update holds the duty or moves it by one step. -/
theorem mpptCandidate_cases (s : State) :
    mpptCandidate s = s.mppt.duty ∨ mpptCandidate s = fSub s.mppt.duty s.mpptSnap.delta ∨
      mpptCandidate s = fAdd s.mppt.duty s.mpptSnap.delta := by
  unfold mpptCandidate
  split
  · unfold candidateB
    split
    · exact .inr (.inr rfl)
    · exact .inr (.inl rfl)
  · rw [candidateA_eq]
    split_ifs
    · exact .inr (.inl rfl)
    · exact .inr (.inr rfl)
    · exact .inl rfl

theorem isNaN_mpptCandidate (hdelta : isFinite s.mpptSnap.delta = true) (hduty : isFinite s.mppt.duty = true) :
    isNaN (mpptCandidate s) = false := by
  rcases mpptCandidate_cases s with h | h | h <;> rw [h]
  · exact isNaN_false_of_isFinite hduty
  · exact isNaN_fSub hduty hdelta
  · exact isNaN_fAdd hduty hdelta

end

/-! The clamp (R152) and the flags (R152, R156). -/

section
variable {n : MpptSnap} {c : F64}

theorem clampDuty_of_fGt (h : fGt c n.max = true) : clampDuty n c = n.max := if_pos h

theorem clampDuty_of_fLt (hmax : fGt c n.max = false) (h : fLt c n.min = true) : clampDuty n c = n.min := by
  simp [clampDuty, hmax, h]

theorem clampDuty_of_within (hmax : fGt c n.max = false) (hmin : fLt c n.min = false) : clampDuty n c = c := by
  simp [clampDuty, hmax, hmin]

theorem clampDuty_within (hmin : isNaN n.min = false) (hmax : isNaN n.max = false) (hle : fLe n.min n.max = true)
    (hc : isNaN c = false) : fLe n.min (clampDuty n c) = true ∧ fLe (clampDuty n c) n.max = true := by
  rcases hgt : fGt c n.max with - | -
  · rcases hlt : fLt c n.min with - | -
    · rw [clampDuty_of_within hgt hlt]
      exact ⟨fLe_of_not_fLt hc hmin hlt, fLe_of_not_fLt hmax hc hgt⟩
    · rw [clampDuty_of_fLt hgt hlt]
      exact ⟨fLe_refl hmin, hle⟩
  · rw [clampDuty_of_fGt hgt]
    exact ⟨hle, fLe_refl hmax⟩

theorem clampsLow_iff : clampsLow n c = true ↔ fGt c n.max = false ∧ fLt c n.min = true := by
  simp [clampsLow]

theorem mpptNonfinite_iff {policyB : Bool} {m : MpptRegs} :
    mpptNonfinite policyB m = true ↔
      isFinite m.duty = false ∨ isFinite m.prevP = false ∨ (policyB = false ∧ isFinite m.prevV = false) := by
  simp [mpptNonfinite, or_assoc]

end

/-! MPPT_UPDATE (R151). -/

section
variable {s : State}

theorem exec_mpptUpdate (hs : s.seq = .exec) : exec .mpptUpdate s = .next (complete (mpptUpdateBody s)) :=
  exec_exec hs (by decide) (by decide)

theorem mpptNext_of_policyA (h : s.active.getLsbD 1 = false) :
    mpptNext s = ⟨s.inp.pvV, pvPower s, clampDuty s.mpptSnap (mpptCandidate s)⟩ := by
  rw [mpptNext, State.mpptActB, h]
  rfl

theorem mpptNext_of_policyB (h : s.active.getLsbD 1 = true) :
    mpptNext s = ⟨s.mppt.prevV, pvPower s, clampDuty s.mpptSnap (mpptCandidate s)⟩ := by
  rw [mpptNext, State.mpptActB, h]
  rfl

end

/-- Settles O34: the comparisons with zero are the four signs, and each row of the table is a lemma about `candidateA`. -/
theorem mpptPolicyATable : Obligations.MpptPolicyATable := by
  intro s hs hact
  refine ⟨_, mpptCandidate s, _, _, exec_mpptUpdate hs, ?_, rfl, rfl, ?_⟩
  · rw [mpptUpdateBody, mpptNext_of_policyA hact]
    rfl
  · rw [mpptCandidate_of_policyA hact]
    have hzero : (0 : F64) = fZero := rfl
    simp only [hzero, ← fSign_eq_neg_iff, ← fSign_eq_pos_iff, ← fSign_eq_zero_iff, ← fSign_eq_none_iff]
    exact ⟨candidateA_of_dV_neg, candidateA_of_dV_pos, candidateA_of_dP_unsigned, candidateA_of_dV_unsigned⟩

/-- Settles O35: the two branches of `candidateB`, and policy B keeps PREV_V. -/
theorem mpptPolicyB : Obligations.MpptPolicyB := by
  intro s hs hact
  refine ⟨_, mpptCandidate s, exec_mpptUpdate hs, ?_, ?_⟩
  · rw [mpptUpdateBody, mpptNext_of_policyB hact]
    rfl
  · rw [mpptCandidate_of_policyB hact]
    exact ⟨fun h => if_pos h, fun h => if_neg (Bool.eq_false_iff.1 h)⟩

/-- Settles O36: each flag is or-ed with its own check, and the clamp has one lemma per case. -/
theorem mpptUpdateFlags : Obligations.MpptUpdateFlags := by
  intro s hs
  refine ⟨_, mpptCandidate s, _, _, _, exec_mpptUpdate hs, rfl, rfl, rfl, fun hact => ?_, fun hact => ?_, ?_, ?_,
    clampDuty_of_fGt, clampDuty_of_fLt, clampDuty_of_within, ?_⟩
  · rw [mpptCandidate_of_policyA hact, candidateA_eq]
    simp only [Bool.and_eq_true, Bool.or_eq_true, fSign_eq_neg_iff, fSign_eq_pos_iff]
    rfl
  · rw [mpptCandidate_of_policyB hact]
    rfl
  · rw [← Bool.or_eq_true]
    rfl
  · rw [← clampsLow_iff, ← Bool.or_eq_true]
    rfl
  · rw [← mpptNonfinite_iff, ← Bool.or_eq_true]
    rfl

/-- Settles O37: the candidate is no NaN, and the clamp brings every other one within the bounds. -/
theorem dutyStaysWithinBounds : Obligations.DutyStaysWithinBounds := by
  intro s hs hmin hmax hle hdelta hduty
  exact ⟨_, exec_mpptUpdate hs, clampDuty_within (isNaN_false_of_isFinite hmin) (isNaN_false_of_isFinite hmax) hle
    (isNaN_mpptCandidate hdelta hduty)⟩

end Sys2Proof.Machine
end

section
/-! The mapper: MAP_INIT, and the count and the saturation of MAP_UPDATE through the exact value of its rounded product. -/

namespace Sys2Proof.Machine

/-! Order, conversions and roundHalfAway in exact values (R11, R12, R171). -/

section
variable {x y z : F64}

theorem fLe_iff_fValue (hx : isFinite x = true) (hy : isFinite y = true) : fLe x y = true ↔ fValue x ≤ fValue y :=
  fGe_iff_fValue hy hx

theorem fLe_iff_not_isNaN_and_fKey : fLe x y = true ↔ isNaN x = false ∧ isNaN y = false ∧ fKey x ≤ fKey y := by
  simp [fLe, and_assoc]

theorem fLe_trans (hxy : fLe x y = true) (hyz : fLe y z = true) : fLe x z = true := by
  rw [fLe_iff_not_isNaN_and_fKey] at *
  obtain ⟨hx, -, hkxy⟩ := hxy
  obtain ⟨-, hz, hkyz⟩ := hyz
  exact ⟨hx, hz, hkxy.trans hkyz⟩

theorem isFinite_of_fLe_of_fLe (hx : isFinite x = true) (hz : isFinite z = true) (hxy : fLe x y = true) (hyz : fLe y z = true) :
    isFinite y = true := by
  rw [fLe_iff_not_isNaN_and_fKey] at hxy hyz
  obtain ⟨-, -, hkxy⟩ := hxy
  obtain ⟨-, -, hkyz⟩ := hyz
  rw [isFinite_iff_abs_fKey, abs_lt] at *
  exact ⟨hx.1.trans_le hkxy, hkyz.trans_lt hz.2⟩

theorem isFinite_fOfNat {n : Nat} (h : n < 2 ^ 53) : isFinite (fOfNat n) = true := by
  rw [fOfNat, isFinite_fPack (roundMag_lt _ _), decide_eq_true (magUnits_roundMag_nat h).1]

/-- binary64(n) is exact below 2^53. -/
theorem fValue_fOfNat {n : Nat} (h : n < 2 ^ 53) : fValue (fOfNat n) = n := by
  rw [fOfNat, fValue_fPack (roundMag_lt _ _), magValue, (magUnits_roundMag_nat h).2, Nat.cast_mul, Nat.cast_pow, Nat.cast_ofNat,
    mul_div_cancel_right₀ _ (by positivity)]
  exact one_mul _

theorem fToNat_eq_of_abs_fValue {n : Nat} (h : |fValue x| = n) : fToNat x = n := by
  have hunits : units x = n * 2 ^ 1074 := by
    rw [abs_fValue, magValue, div_eq_iff (by positivity)] at h
    rw [← Nat.cast_inj (R := ℚ), Nat.cast_mul, Nat.cast_pow, Nat.cast_ofNat]
    exact h
  rw [fToNat, hunits, Nat.mul_div_cancel _ (Nat.two_pow_pos 1074)]

theorem abs_fValue_roundHalfAway (hx : isFinite x = true) : |fValue (roundHalfAway x)| = nearestInt x := by
  obtain ⟨-, -, habs⟩ := roundHalfAwayIsNearestInteger x hx
  rw [habs, abs_fValue, floor_magValue_add_half, Int.cast_natCast]

theorem fToNat_roundHalfAway (hx : isFinite x = true) : fToNat (roundHalfAway x) = nearestInt x :=
  fToNat_eq_of_abs_fValue (abs_fValue_roundHalfAway hx)

theorem roundHalfAway_of_not_isFinite (hx : isFinite x = false) : roundHalfAway x = x := by
  simp [roundHalfAway, hx]

theorem isFinite_roundHalfAway (x : F64) : isFinite (roundHalfAway x) = isFinite x := by
  cases hx : isFinite x
  · rw [roundHalfAway_of_not_isFinite hx, hx]
  · exact (roundHalfAwayIsNearestInteger x hx).1

theorem isNaN_roundHalfAway (hx : isNaN x = false) : isNaN (roundHalfAway x) = false := by
  cases hfin : isFinite x
  · rw [roundHalfAway_of_not_isFinite hfin, hx]
  · exact isNaN_false_of_isFinite ((isFinite_roundHalfAway x).trans hfin)

/-- Rounding keeps the sign, and the only values that are not negative with the sign bit set are zeros. -/
theorem fValue_roundHalfAway_of_nonneg (hx : isFinite x = true) (h0 : 0 ≤ fValue x) :
    fValue (roundHalfAway x) = (⌊fValue x + 1 / 2⌋ : ℚ) := by
  obtain ⟨-, hsign, habs⟩ := roundHalfAwayIsNearestInteger x hx
  rw [abs_of_nonneg h0] at habs
  rw [← habs]
  cases hs : fSignBit x
  · rw [eq_comm, abs_eq_self, fValue_eq, hsign, hs]
    exact mul_nonneg zero_le_one (magValue_nonneg _)
  · have hx0 : fValue x = 0 := by
      refine h0.antisymm' ?_
      rw [fValue_eq, hs]
      exact mul_nonpos_of_nonpos_of_nonneg (neg_nonpos.2 zero_le_one) (magValue_nonneg _)
    have hr0 : |fValue (roundHalfAway x)| = 0 := by
      rw [habs, hx0]
      norm_num
    rw [hr0, abs_eq_zero.1 hr0]

end

/-! The count and the saturation (R171, R172). -/

theorem isFinite_fOfNat_toNat (per : U32) : isFinite (fOfNat per.toNat) = true :=
  isFinite_fOfNat (per.isLt.trans (by decide))

theorem fValue_fOfNat_toNat (per : U32) : fValue (fOfNat per.toNat) = per.toNat :=
  fValue_fOfNat (per.isLt.trans (by decide))

section
variable {per : U32} {duty : F64}

theorem mapTicks_of_not_nonneg (h : isNaN (mapProduct per duty) = true ∨ fLt (roundHalfAway (mapProduct per duty)) fZero = true) :
    mapTicks per duty = 0 := by
  rcases h with h | h <;> simp [mapTicks, h]

theorem mapSaturates_iff :
    mapSaturates per duty = true ↔
      (isNaN (mapProduct per duty) = true ∨ fLt (roundHalfAway (mapProduct per duty)) fZero = true) ∨
        fGt (roundHalfAway (mapProduct per duty)) (fOfNat per.toNat) = true := by
  rw [mapSaturates, Bool.or_eq_true, Bool.or_eq_true]

section
variable (hnan : isNaN (mapProduct per duty) = false) (hneg : fLt (roundHalfAway (mapProduct per duty)) fZero = false)
include hnan hneg

theorem mapTicks_of_above (h : fGt (roundHalfAway (mapProduct per duty)) (fOfNat per.toNat) = true) : mapTicks per duty = per := by
  simp [mapTicks, hnan, hneg, h]

variable (habove : fGt (roundHalfAway (mapProduct per duty)) (fOfNat per.toNat) = false)
include habove

theorem mapSaturates_of_within : mapSaturates per duty = false := by
  simp [mapSaturates, hnan, hneg, habove]

/-- A rounded product within the period is a natural number of at most PERn, which the 32-bit count holds exactly. -/
theorem toNat_mapTicks_of_within : ((mapTicks per duty).toNat : ℚ) = fValue (roundHalfAway (mapProduct per duty)) := by
  have hperfin := isFinite_fOfNat_toNat per
  have hrnan := isNaN_roundHalfAway hnan
  have hlo : fLe fZero (roundHalfAway (mapProduct per duty)) = true := fLe_of_not_fLt hrnan (by decide) hneg
  have hhi := fLe_of_not_fLt (isNaN_false_of_isFinite hperfin) hrnan habove
  have hrfin := isFinite_of_fLe_of_fLe (by decide) hperfin hlo hhi
  have hxfin := (isFinite_roundHalfAway _).symm.trans hrfin
  rw [fLe_iff_fValue (by decide) hrfin, fValue_fZero] at hlo
  rw [fLe_iff_fValue hrfin hperfin, fValue_fOfNat_toNat] at hhi
  have hvalue : fValue (roundHalfAway (mapProduct per duty)) = nearestInt (mapProduct per duty) := by
    rw [← abs_fValue_roundHalfAway hxfin, abs_of_nonneg hlo]
  have hcount : nearestInt (mapProduct per duty) ≤ per.toNat := by
    rw [hvalue] at hhi
    exact_mod_cast hhi
  have hticks : mapTicks per duty = BitVec.ofNat 32 (nearestInt (mapProduct per duty)) := by
    simp [mapTicks, hnan, hneg, habove, fToNat_roundHalfAway hxfin]
  rw [hvalue, hticks, BitVec.toNat_ofNat, Nat.mod_eq_of_lt (hcount.trans_lt per.isLt)]

end

/-! A duty in [0, 1] (R176). -/

section
variable (hlo : fLe fZero duty = true) (hhi : fLe duty fOne = true)
include hlo hhi

/-- The exact product lies in [0, PERn], and both ends are binary64 values, so the rounded one does too. -/
theorem mapProduct_mem_Icc :
    isFinite (mapProduct per duty) = true ∧ 0 ≤ fValue (mapProduct per duty) ∧ fValue (mapProduct per duty) ≤ per.toNat := by
  have hfin : isFinite duty = true := isFinite_of_fLe_of_fLe (by decide) (by decide) hlo hhi
  have hper := isFinite_fOfNat_toNat per
  have hone : fValue fOne = 1 := by
    rw [fValue, show signedUnits fOne = 2 ^ 1074 by decide +kernel, Int.cast_pow, Int.cast_ofNat, div_self (by positivity)]
  rw [fLe_iff_fValue (by decide) hfin, fValue_fZero] at hlo
  rw [fLe_iff_fValue hfin (by decide), hone] at hhi
  have hexact : fValue (fOfNat per.toNat) * fValue duty ∈ Set.Icc (fValue fZero) (fValue (fOfNat per.toNat)) := by
    rw [fValue_fZero, fValue_fOfNat_toNat]
    exact ⟨mul_nonneg (Nat.cast_nonneg _) hlo, mul_le_of_le_one_right (Nat.cast_nonneg _) hhi⟩
  have hbounds := (roundsTo_fMul hper hfin).mem_Icc (by decide) hper hexact
  rwa [fValue_fZero, fValue_fOfNat_toNat] at hbounds

theorem floor_mapProduct_mem_Icc :
    0 ≤ ⌊fValue (mapProduct per duty) + 1 / 2⌋ ∧ ⌊fValue (mapProduct per duty) + 1 / 2⌋ ≤ per.toNat := by
  obtain ⟨-, h0, hle⟩ := mapProduct_mem_Icc (per := per) hlo hhi
  exact ⟨Int.floor_nonneg.2 (by positivity), Int.lt_add_one_iff.1 (Int.floor_lt.2 (by push_cast; linarith))⟩

/-- The rounded product is no NaN, not negative and not above PERn. -/
theorem mapProduct_within :
    isNaN (mapProduct per duty) = false ∧ fLt (roundHalfAway (mapProduct per duty)) fZero = false ∧
      fGt (roundHalfAway (mapProduct per duty)) (fOfNat per.toNat) = false := by
  obtain ⟨hfin, h0, -⟩ := mapProduct_mem_Icc (per := per) hlo hhi
  obtain ⟨hr0, hrle⟩ := floor_mapProduct_mem_Icc (per := per) hlo hhi
  have hrfin := (isFinite_roundHalfAway _).trans hfin
  have hround := fValue_roundHalfAway_of_nonneg hfin h0
  obtain ⟨hlt, -⟩ := (comparisonsAreOfValues (roundHalfAway (mapProduct per duty)) fZero).1 hrfin (by decide)
  obtain ⟨-, -, hgt, -⟩ := (comparisonsAreOfValues (roundHalfAway (mapProduct per duty)) (fOfNat per.toNat)).1 hrfin
    (isFinite_fOfNat_toNat per)
  rw [← Bool.not_eq_true (fLt _ _), ← Bool.not_eq_true (fGt _ _), hlt, hgt, hround, fValue_fZero, fValue_fOfNat_toNat]
  exact ⟨isNaN_false_of_isFinite hfin, by exact_mod_cast hr0.not_gt, by exact_mod_cast hrle.not_gt⟩

theorem toNat_mapTicks_eq_floor : ((mapTicks per duty).toNat : ℤ) = ⌊fValue (mapProduct per duty) + 1 / 2⌋ := by
  obtain ⟨hfin, h0, -⟩ := mapProduct_mem_Icc (per := per) hlo hhi
  obtain ⟨hnan, hneg, habove⟩ := mapProduct_within (per := per) hlo hhi
  have h := toNat_mapTicks_of_within hnan hneg habove
  rw [fValue_roundHalfAway_of_nonneg hfin h0] at h
  exact_mod_cast h

theorem toNat_mapTicks_le : (mapTicks per duty).toNat ≤ per.toNat := by
  rw [← Nat.cast_le (α := ℤ), toNat_mapTicks_eq_floor hlo hhi]
  exact (floor_mapProduct_mem_Icc hlo hhi).2

end

end

/-- The duty +0 maps to the count 0. -/
theorem mapTicks_fZero (per : U32) : mapTicks per fZero = 0 := by
  have hproduct : fValue (mapProduct per fZero) = 0 := by
    rw [mapProduct, fMul_of_isFinite (isFinite_fOfNat_toNat per) (by decide), show units fZero = 0 by decide, Nat.mul_zero,
      roundMag_zero (Nat.two_pow_pos 1074), fValue_fPack (Nat.two_pow_pos 63), magValue_zero, mul_zero]
  have hcount := toNat_mapTicks_eq_floor (per := per) (duty := fZero) (by decide) (by decide)
  rw [hproduct, show ⌊(0 : ℚ) + 1 / 2⌋ = 0 by norm_num] at hcount
  exact BitVec.eq_of_toNat_eq (by exact_mod_cast hcount)

/-- R176's two ranges of the duty: the reset bounds lie in [0, 1]. -/
theorem unitRange_of_resetBounds {duty : F64}
    (h : fLe fZero duty = true ∧ fLe duty fOne = true ∨
      fLe 0x3FA999999999999A#64 duty = true ∧ fLe duty 0x3FEE666666666666#64 = true) :
    fLe fZero duty = true ∧ fLe duty fOne = true := by
  rcases h with h | ⟨hmin, hmax⟩
  · exact h
  · exact ⟨fLe_trans (by decide) hmin, fLe_trans hmax (by decide)⟩

/-! The two commands (R170, R171). -/

section
variable {s : State}

theorem exec_mapUpdate (hs : s.seq = .exec) : exec .mapUpdate s = .next (complete (mapUpdateBody s)) :=
  exec_exec hs (by decide) (by decide)

theorem mapSat_of_mapSaturates (h : mapSaturates s.mapSnap.per s.mppt.duty = true) :
    (complete (mapUpdateBody s)).sticky.mapSat = true := by
  simp [stickyAfterMap, h]

theorem mapSat_of_not_mapSaturates (h : mapSaturates s.mapSnap.per s.mppt.duty = false) :
    (complete (mapUpdateBody s)).sticky.mapSat = s.sticky.mapSat := by
  simp [stickyAfterMap, h]

end

/-- Settles O38: MAP_INIT in EXEC is its body with the completion. -/
theorem mapInitLatches : Obligations.MapInitLatches := fun _ hs => exec_exec hs (by decide) (by decide)

/-- Settles O39: the count and the saturation have one lemma for each of the three cases. -/
theorem mapUpdateCounts : Obligations.MapUpdateCounts := by
  intro s hs
  refine ⟨_, _, _, _, _, exec_mapUpdate hs, rfl, rfl, fValue_fOfNat_toNat _, rfl, rfl, fun hzero => ?_, fun hnan hneg habove => ?_,
    fun hnan hneg habove => ?_⟩
  · exact ⟨mapTicks_of_not_nonneg hzero, mapSat_of_mapSaturates (mapSaturates_iff.2 (.inl hzero))⟩
  · exact ⟨mapTicks_of_above hnan hneg habove, mapSat_of_mapSaturates (mapSaturates_iff.2 (.inr habove))⟩
  · exact ⟨toNat_mapTicks_of_within hnan hneg habove, mapSat_of_not_mapSaturates (mapSaturates_of_within hnan hneg habove)⟩

/-- Settles O40: for a duty in [0, 1] the rounded product is within [0, PERn], so the count is the product's nearest integer. -/
theorem dutyInUnitRangeNeverSaturates : Obligations.DutyInUnitRangeNeverSaturates := by
  intro s hs hduty
  obtain ⟨hlo, hhi⟩ := unitRange_of_resetBounds hduty
  obtain ⟨hfin, h0, hle⟩ := mapProduct_mem_Icc (per := s.mapSnap.per) hlo hhi
  obtain ⟨hnan, hneg, habove⟩ := mapProduct_within (per := s.mapSnap.per) hlo hhi
  have hperfin := isFinite_fOfNat_toNat s.mapSnap.per
  refine ⟨_, exec_mapUpdate hs, mapSat_of_not_mapSaturates (mapSaturates_of_within hnan hneg habove), ?_, ?_, ?_, fun hzero => ?_⟩
  · exact toNat_mapTicks_le hlo hhi
  · exact (fLe_iff_fValue (by decide) hfin).2 (by rwa [fValue_fZero])
  · exact (fLe_iff_fValue hfin hperfin).2 (by rwa [fValue_fOfNat_toNat])
  · rw [complete_mapOnTicks, mapUpdateBody_mapOnTicks, hzero, mapTicks_fZero]

/-- Settles O41: the count is a function of PERn and the duty alone. -/
theorem mapUpdateIsIdempotent : Obligations.MapUpdateIsIdempotent := by
  intro s u hs hu hper hduty
  refine ⟨_, _, mapTicks s.mapSnap.per s.mppt.duty, exec_mapUpdate hs, exec_mapUpdate hu, rfl, ?_, rfl, ?_⟩
  · rw [complete_mapOnTicks, mapUpdateBody_mapOnTicks, hper, hduty]
  · rw [complete_history, mapUpdateBody_history, hper, hduty]

end Sys2Proof.Machine
end

section
/-! The sequencer (43_sequencer.md): acceptance, the turns of the core, the acquisitions, the compute step as the three updates in order,
the wait for a tick, and RUN as a loop that only reset leaves. -/

namespace Sys2Proof.Machine

section
variable {s : State} {i : Instr}

/-! Acceptance (R180). -/

/-- A command without acquisition goes to EXEC; MODE and RUNNING are not written. -/
theorem accept_of_ne_cycle_of_ne_run (hc : i ≠ .cycle) (hr : i ≠ .run) :
    accept i s = { s with pending := some i, busy := true, seq := .exec } := by
  cases i with
  | cycle => exact absurd rfl hc
  | run => exact absurd rfl hr
  | _ => simp [accept, acceptedSeq, acceptedMode]

theorem accept_cycle : accept .cycle s = { s with pending := some .cycle, busy := true, mode := .once, seq := .acqGrid } := by
  simp [accept, acceptedSeq, acceptedMode]

theorem accept_run :
    accept .run s = { s with pending := some .run, busy := true, mode := .loop, running := true, seq := .acqGrid } := by
  simp [accept, acceptedSeq, acceptedMode]

/-! The turns of the core (R188). -/

theorem coreEnabled_iff :
    coreEnabled s = true ↔ s.seq = .exec ∨ s.seq = .compute ∨ (s.seq = .waitTick ∧ s.tickPending = true) := by
  cases h : s.seq <;> simp [coreEnabled, h]

theorem coreEnabled_eq_false_iff :
    coreEnabled s = false ↔ s.seq = .idle ∨ s.seq = .acqGrid ∨ s.seq = .acqPv ∨ (s.seq = .waitTick ∧ s.tickPending = false) := by
  cases h : s.seq <;> simp [coreEnabled, h]

theorem runPending_of_pending (hp : s.pending = some i) : runPending s = exec i s := by
  simp only [runPending, hp]

theorem coreStep_of_enabled (hen : coreEnabled s = true) (hp : s.pending = some i) : coreStep s = exec i s := by
  rw [coreStep, if_pos hen, runPending_of_pending hp]

theorem coreStep_of_not_enabled (hen : coreEnabled s = false) : coreStep s = .next s := by
  rw [coreStep, hen, if_neg Bool.false_ne_true]

/-! The step, by the move at the head of the agenda (R79). -/

section
variable {rest : List Move}

theorem step_nil (ha : s.agenda = []) : step s = coreStep s := by
  simp only [step, ha]

theorem step_core (ha : s.agenda = .core :: rest) : step s = coreStep { s with agenda := rest } := by
  simp only [step, ha, State.pop, List.tail_cons]

theorem step_grid {g : F64} (ha : s.agenda = .grid g :: rest) :
    step s = if s.seq = .acqGrid then runPending s else .next { s with agenda := rest } := by
  simp only [step, ha, State.gridReq, beq_iff_eq, State.pop, List.tail_cons]

theorem step_pv {v c : F64} (ha : s.agenda = .pv v c :: rest) :
    step s = if s.seq = .acqPv then runPending s else .next { s with agenda := rest } := by
  simp only [step, ha, State.pvReq, beq_iff_eq, State.pop, List.tail_cons]

/-! The acquisitions (R182, R184). -/

theorem acquireGrid_of_delivery {g : F64} (ha : s.agenda = .grid g :: rest) :
    acquireGrid s =
      { s with inp := { s.inp with sampleIn := g }, seq := .acqPv, history := s.history ++ [.grid g], agenda := rest } := by
  simp only [acquireGrid, ha]

theorem acquireGrid_of_no_delivery (ha : ∀ g r, s.agenda ≠ .grid g :: r) : acquireGrid s = s := by
  unfold acquireGrid
  split
  · next h => exact absurd h (ha _ _)
  · rfl

theorem acquirePv_of_delivery {v c : F64} (ha : s.agenda = .pv v c :: rest) :
    acquirePv s =
      { s with inp := { s.inp with pvV := v, pvI := c }, seq := .compute, history := s.history ++ [.pv v c], agenda := rest } := by
  simp only [acquirePv, ha]

theorem acquirePv_of_no_delivery (ha : ∀ v c r, s.agenda ≠ .pv v c :: r) : acquirePv s = s := by
  unfold acquirePv
  split
  · next h => exact absurd h (ha _ _ _)
  · rfl

end

/-! The compute step and the wait for a tick (R183, R185). -/

theorem endCompute_of_once (h : s.mode = .once) : endCompute s = complete s := by
  simp only [endCompute, h]

theorem endCompute_of_loop (h : s.mode = .loop) : endCompute s = { s with seq := .waitTick } := by
  simp only [endCompute, h]

theorem leaveWaitTick_of_tick (h : s.tickPending = true) : leaveWaitTick s = { s with tickPending := false, seq := .acqGrid } :=
  if_pos h

theorem leaveWaitTick_of_no_tick (h : s.tickPending = false) : leaveWaitTick s = s := by
  rw [leaveWaitTick, h, if_neg Bool.false_ne_true]

/-- No body reads PENDING, BUSY or SEQ: put into EXEC with any of them, a command answers its body on the state, completed. -/
theorem exec_put_in_exec (hc : i ≠ .cycle) (hr : i ≠ .run) (s : State) (p : Option Instr) (b : Bool) :
    exec i { s with pending := p, busy := b, seq := .exec } = .next (complete (bodyOf i s)) := by
  rw [exec_exec rfl hc hr]
  cases i <;> rfl

theorem exec_put_back_in_exec (hc : i ≠ .cycle) (hr : i ≠ .run) (s : State) :
    exec i { complete s with seq := .exec } = .next (complete (bodyOf i s)) :=
  exec_put_in_exec hc hr s none false

/-- The three updates, each put into EXEC on what the one before left, leave the body of the compute step, completed (R183). -/
theorem exists_updates_eq_computeBody (s : State) : ∃ a b,
    exec .pllUpdate { s with seq := .exec } = .next a ∧ exec .mpptUpdate { a with seq := .exec } = .next b ∧
    exec .mapUpdate { b with seq := .exec } = .next (complete (computeBody s)) :=
  ⟨_, _, exec_put_in_exec (by decide) (by decide) s s.pending s.busy,
    exec_put_back_in_exec (by decide) (by decide) (pllUpdateBody s),
    exec_put_back_in_exec (by decide) (by decide) (mpptUpdateBody (pllUpdateBody s))⟩

theorem stickyOr_right_comm (k d e : Sticky) : stickyOr (stickyOr k d) e = stickyOr (stickyOr k e) d := by
  simp [stickyOr, Bool.or_right_comm]

/-- Neither update reads what the other writes, and both set sticky bits on top of those that are set (R183). -/
theorem mpptUpdateBody_pllUpdateBody (s : State) : mpptUpdateBody (pllUpdateBody s) = pllUpdateBody (mpptUpdateBody s) := by
  have hsticky : (mpptUpdateBody (pllUpdateBody s)).sticky = (pllUpdateBody (mpptUpdateBody s)).sticky := by
    simp only [mpptUpdateBody_sticky, pllUpdateBody_sticky, stickyAfterPll_eq, stickyAfterMppt_eq]
    exact stickyOr_right_comm _ _ _
  exact congrArg (fun k => { mpptUpdateBody (pllUpdateBody s) with sticky := k }) hsticky

end

/-! RUN as a loop (R185, R246). -/

/-- RUN is in progress: RUNNING and BUSY, MODE LOOP, RUN pending, and SEQ one of the states of the loop. -/
def InLoop (s : State) : Prop :=
  s.running = true ∧ s.busy = true ∧ s.mode = .loop ∧ s.pending = some .run ∧ s.seq ≠ .idle ∧ s.seq ≠ .exec

section
variable {s t : State}

theorem pendingFits_loop_iff {q : Seq} {p : Option Instr} :
    pendingFits q .loop p = true ↔ p = some .run ∧ q ≠ .idle ∧ q ≠ .exec := by
  cases p <;> cases q <;> simp [pendingFits]

theorem inLoop_of_running (hinv : MachineInv s) (hrun : s.running = true) : InLoop s := by
  have hmode := hinv.running_iff.1 hrun
  obtain ⟨hpend, hidle, hexec⟩ := pendingFits_loop_iff.1 (hmode ▸ hinv.pending_fits)
  exact ⟨hrun, hinv.busy_iff.2 hidle, hmode, hpend, hidle, hexec⟩

/-- Every transition of RUN within the loop goes to another state of the loop, or waits. -/
theorem inLoop_exec (hloop : InLoop s) (h : exec .run s = .next t) : InLoop t := by
  have ⟨hrun, hbusy, hmode, hpend, hidle, _⟩ := hloop
  obtain ⟨hs, -⟩ | ⟨-, -, hne, -⟩ | ⟨-, -, rfl⟩ | ⟨-, -, rfl⟩ | ⟨-, -, rfl⟩ | ⟨-, -, rfl⟩ := exec_cases h
  · exact absurd hs hidle
  · exact absurd rfl hne
  · unfold acquireGrid
    split
    · exact ⟨hrun, hbusy, hmode, hpend, nofun, nofun⟩
    · exact hloop
  · unfold acquirePv
    split
    · exact ⟨hrun, hbusy, hmode, hpend, nofun, nofun⟩
    · exact hloop
  · rw [endCompute_of_loop (s := computeBody s) hmode]
    exact ⟨hrun, hbusy, hmode, hpend, nofun, nofun⟩
  · unfold leaveWaitTick
    split
    · exact ⟨hrun, hbusy, hmode, hpend, nofun, nofun⟩
    · exact hloop

/-! The bus does not write the sequencer (R72). -/

/-- RUNNING, BUSY, MODE, PENDING and SEQ. -/
def State.sequencer (s : State) : Bool × Bool × Mode × Option Instr × Seq := (s.running, s.busy, s.mode, s.pending, s.seq)

theorem InLoop.of_sequencer_eq (hloop : InLoop s) (h : t.sequencer = s.sequencer) : InLoop t := by
  simp only [State.sequencer, Prod.mk.injEq] at h
  obtain ⟨hrun, hbusy, hmode, hpend, hseq⟩ := h
  rwa [InLoop, hrun, hbusy, hmode, hpend, hseq]

theorem sequencer_busRead (a : Offset) (n : Nat) (s : State) : (busRead a n s).sequencer = s.sequencer := by
  obtain ⟨_, _, _, _, h⟩ := busRead_frame a n s
  rw [h]
  rfl

theorem sequencer_pollRead (a : Offset) (m w : Word) (s : State) : (pollRead a m w s).sequencer = s.sequencer := by
  obtain ⟨_, h⟩ := pollRead_frame a m w s
  rw [h]
  exact sequencer_busRead a 8 s

theorem sequencer_busWrite (act : WriteAction) (a : Offset) (n : Nat) (v : Word) (s : State) :
    (busWrite act a n v s).sequencer = s.sequencer := by
  cases act with
  | refuse c =>
    simp only [busWrite, raiseErr_frame]
    rfl
  | clear => rfl
  | issue i => rfl
  | store r =>
    obtain ⟨_, _, _, _, h⟩ := storeReg_frame r v s
    simp only [busWrite, h]
    rfl

/-- A step within the loop that is no reset stays in it: the pending command is RUN, and BUSY keeps every other one from being issued. -/
theorem inLoop_step (hloop : InLoop s) (hr : resetNext s = false) (h : step s = .next t) : InLoop t := by
  have ⟨_, hbusy, _, hpend, _⟩ := hloop
  rcases step_cases h with rfl | rfl | ⟨i, hp, he⟩ | ⟨a, n, v, i, rest, -, hw, -⟩ | ⟨a, n, v, rest, -, rfl, -⟩ |
    ⟨a, n, rest, -, rfl⟩ | ⟨a, m, w, rest, -, rfl⟩ | ⟨rest, -, rfl⟩ | ⟨rest, ha, -⟩
  · exact hloop
  · exact hloop
  · obtain rfl : i = .run := Option.some.inj (hp.symm.trans hpend)
    exact he.elim (inLoop_exec hloop) (inLoop_exec (s := s.pop) hloop)
  · obtain ⟨-, -, hidle, -⟩ := writeAction_issue hw
    exact absurd hbusy (by simpa using hidle)
  · exact hloop.of_sequencer_eq (sequencer_busWrite _ a n v s.pop)
  · exact hloop.of_sequencer_eq (sequencer_busRead a n s.pop)
  · exact hloop.of_sequencer_eq (sequencer_pollRead a m w s.pop)
  · exact hloop
  · simp [resetNext, ha] at hr

end

/-- Settles O4: by the invariant RUNNING is `InLoop`, and `inLoop_step` keeps it. -/
theorem runIsLeftOnlyByReset : Obligations.RunIsLeftOnlyByReset := fun _ _ hinv hrun hr h =>
  inLoop_step (inLoop_of_running hinv hrun) hr h

/-- Settles O12: either order runs the two bodies, which commute. -/
theorem pllAndMpptUpdatesCommute : Obligations.PllAndMpptUpdatesCommute := by
  intro s hs
  refine ⟨_, _, complete (mpptUpdateBody (pllUpdateBody s)), exec_pllUpdate hs, exec_mpptUpdate hs,
    exec_put_back_in_exec (by decide) (by decide) (pllUpdateBody s), ?_⟩
  rw [mpptUpdateBody_pllUpdateBody]
  exact exec_put_back_in_exec (by decide) (by decide) (mpptUpdateBody s)

/-- Settles O43, by whether the delivery asked for is at the head of the agenda. -/
theorem acquisitionTakesDeliveries : Obligations.AcquisitionTakesDeliveries := by
  intro i s rest hi
  refine ⟨fun g hs ha => ?_, fun v c hs ha => ?_, fun hs ha => ?_, fun hs ha => ?_⟩
  · rw [exec_acqGrid hs hi, acquireGrid_of_delivery ha]
  · rw [exec_acqPv hs hi, acquirePv_of_delivery ha]
  · rw [exec_acqGrid hs hi, acquireGrid_of_no_delivery ha]
  · rw [exec_acqPv hs hi, acquirePv_of_no_delivery ha]

/-- Settles O44: with MODE ONCE the compute step ends with completion, as the last of the three updates does. -/
theorem cycleComputesAllThree : Obligations.CycleComputesAllThree := by
  intro s hs hmode
  obtain ⟨a, b, hpll, hmppt, hmap⟩ := exists_updates_eq_computeBody s
  refine ⟨a, b, _, hpll, hmppt, hmap, ?_, rfl, rfl, rfl, rfl⟩
  rw [exec_compute hs (.inl rfl), endCompute_of_once (s := computeBody s) hmode]

/-- Settles O45: with MODE LOOP the compute step ends in WAIT_TICK, which it leaves with a tick. -/
theorem runComputesAndWaits : Obligations.RunComputesAndWaits := by
  intro s hmode
  refine ⟨fun hs => ?_, fun hs htick => ?_, fun hs htick => ?_⟩
  · obtain ⟨a, b, hpll, hmppt, hmap⟩ := exists_updates_eq_computeBody s
    refine ⟨a, b, _, hpll, hmppt, hmap, ?_⟩
    rw [exec_compute hs (.inr rfl), endCompute_of_loop (s := computeBody s) hmode]
    rfl
  · rw [exec_waitTick hs, leaveWaitTick_of_tick htick]
  · rw [exec_waitTick hs, leaveWaitTick_of_no_tick htick]

/-- Settles O16, clause by clause: the write to CMD, the core's turn where it has a step and where it waits, and the deliveries. -/
theorem stepRunsTheCommand : Obligations.StepRunsTheCommand := by
  intro s i rest
  refine ⟨fun w ha hb hw _ => step_write_cmd ha hb hw, fun ha hp hs => ?_, fun ha hp hs => ?_, fun ha hs => ?_, fun ha hs => ?_,
    fun g ha hs hp => ?_, fun v c ha hs hp => ?_, fun g ha hs => ?_, fun v c ha hs => ?_⟩
  · rw [step_nil ha, coreStep_of_enabled (coreEnabled_iff.2 hs) hp]
  · rw [step_core ha, coreStep_of_enabled (s := { s with agenda := rest }) (coreEnabled_iff.2 hs) hp]
  · rw [step_nil ha, coreStep_of_not_enabled (coreEnabled_eq_false_iff.2 hs)]
  · rw [step_core ha, coreStep_of_not_enabled (s := { s with agenda := rest }) (coreEnabled_eq_false_iff.2 hs)]
  · rw [step_grid ha, if_pos hs, runPending_of_pending hp]
  · rw [step_pv ha, if_pos hs, runPending_of_pending hp]
  · rw [step_grid ha, if_neg hs]
  · rw [step_pv ha, if_neg hs]

/-- Settles O18: in IDLE every command is accepted. -/
theorem acceptanceOfEachCommand : Obligations.AcceptanceOfEachCommand := by
  intro s hs
  refine ⟨fun i hi => ?_, ?_, ?_⟩
  · rw [exec_idle i hs, accept_of_ne_cycle_of_ne_run (by rintro rfl; simp at hi) (by rintro rfl; simp at hi)]
  · rw [exec_idle .cycle hs, accept_cycle]
  · rw [exec_idle .run hs, accept_run]

/-- Settles O42: the body of NOP is the identity. -/
theorem nopOnlyCompletes : Obligations.NopOnlyCompletes := fun _ hs => exec_exec hs (by decide) (by decide)

end Sys2Proof.Machine
end

section
/-! Exceptions (60_exceptions.md): the first error is kept, a write while BUSY changes no register, every step keeps the invariant, and
nothing stops the machine. -/

namespace Sys2Proof.Machine

/-- Settles O19: taking an error has one equation for each value of ERR, and a STATUS write is `clearedSticky`, bit by bit. -/
theorem firstErrorIsKept : Obligations.FirstErrorIsKept := by
  intro c a w s
  refine ⟨raiseErr_clear c a w, raiseErr_again c a w, fun v h8 => ?_, fun v h9 h8 => ?_, fun v => ⟨rfl, rfl, rfl, rfl, rfl⟩⟩
  · rw [clearStatus, clearedSticky, h8]
    simp
  · rw [clearStatus, clearedSticky, h8, h9]
    simp

/-- Settles O9: while BUSY a write is refused, which writes only the error record, or it clears STATUS; no command is issued and nothing is
stored. -/
theorem busyWritesChangeNoRegister : Obligations.BusyWritesChangeNoRegister := by
  intro s t a n v rest hbusy ha h
  cases hact : writeAction a n v s with
  | refuse c =>
    obtain rfl := Host.Outcome.next.inj ((step_write_refuse ha hact).symm.trans h)
    rw [raiseErr_frame]
  | clear =>
    obtain rfl := Host.Outcome.next.inj ((step_write_clear ha hact).symm.trans h)
    rfl
  | issue i =>
    obtain ⟨-, -, hidle, -⟩ := writeAction_issue hact
    exact absurd hbusy (by simp [hidle])
  | store r =>
    obtain ⟨-, -, hidle, -⟩ := writeAction_store hact
    exact absurd hbusy (by simp [hidle])

section
variable {s t : State} {i : Instr} {m : Mode} {p : Option Instr} {q : Seq}

/-! Which PENDING and MODE fit each SEQ (R46, R188). -/

theorem pendingFits_idle_iff : pendingFits .idle m p = true ↔ m = .once ∧ p = none := by
  cases m <;> cases p <;> simp [pendingFits]

theorem pendingFits_exec_iff : pendingFits .exec m p = true ↔ m = .once ∧ ∃ i, p = some i ∧ i ≠ .cycle ∧ i ≠ .run := by
  cases m <;> cases p <;> simp [pendingFits]

theorem pendingFits_acquiring_iff (hq : q = .acqGrid ∨ q = .acqPv ∨ q = .compute) :
    pendingFits q m p = true ↔ (m = .once ∧ p = some .cycle) ∨ (m = .loop ∧ p = some .run) := by
  obtain rfl | rfl | rfl := hq <;> cases m <;> cases p <;> simp [pendingFits]

theorem pendingFits_waitTick_iff : pendingFits .waitTick m p = true ↔ m = .loop ∧ p = some .run := by
  cases m <;> cases p <;> simp [pendingFits]

/-! The error record (R26, R201): every operation that writes it keeps its part of the invariant. -/

/-- ERR_CAUSE holds a record exactly when ERR is 1, and ERR_MULTI is 1 only with ERR. -/
def ErrorFits (s : State) : Prop :=
  (s.sticky.err = true ↔ s.errCause.isSome = true) ∧ (s.sticky.errMulti = true → s.sticky.err = true)

theorem MachineInv.errorFits (hinv : MachineInv s) : ErrorFits s := ⟨hinv.err_iff, hinv.multi_err⟩

theorem errorFits_raiseErr (hfit : ErrorFits s) (c : Cause) (a : Offset) (w : Bool) : ErrorFits (raiseErr c a w s) := by
  obtain ⟨hcause, -⟩ := hfit
  cases herr : s.sticky.err with
  | false => simp [raiseErr_clear c a w herr, ErrorFits]
  | true => simpa [raiseErr_again c a w herr, ErrorFits, herr] using hcause

theorem errorFits_clearStatus (hfit : ErrorFits s) (v : Word) : ErrorFits (clearStatus v s) := by
  rw [clearStatus, clearedSticky]
  cases v.getLsbD 8 with
  | false =>
    obtain ⟨hcause, hmulti⟩ := hfit
    exact ⟨by simpa using hcause, by simpa using fun hm _ => hmulti hm⟩
  | true => simp [ErrorFits]

theorem errorFits_busRead (hfit : ErrorFits s) (a : Offset) (n : Nat) : ErrorFits (busRead a n s) := by
  unfold busRead recordErr
  split
  · exact hfit
  · exact errorFits_raiseErr hfit _ a false

theorem errorFits_busWrite (hfit : ErrorFits s) (act : WriteAction) (a : Offset) (n : Nat) (v : Word) :
    ErrorFits (busWrite act a n v s) := by
  cases act with
  | refuse c => exact errorFits_raiseErr hfit c a true
  | clear => exact errorFits_clearStatus hfit v
  | issue i => exact hfit
  | store r =>
    obtain ⟨_, _, _, _, h⟩ := storeReg_frame r v s
    rw [busWrite, h]
    exact hfit

/-! What leaves the sequencer keeps the invariant if it keeps the error record's part of it: the bus and the bodies of the commands. -/

theorem machineInv_of_sequencer_eq (hinv : MachineInv s) (hseq : t.sequencer = s.sequencer)
    (htick : t.tickPending = true → s.running = true) (herr : ErrorFits t) : MachineInv t := by
  simp only [State.sequencer, Prod.mk.injEq] at hseq
  obtain ⟨hrun, hbusy, hmode, hpend, hseq⟩ := hseq
  obtain ⟨hcause, hmulti⟩ := herr
  refine ⟨?_, ?_, ?_, ?_, hcause, hmulti⟩
  · rw [hbusy, hseq]
    exact hinv.busy_iff
  · rw [hseq, hmode, hpend]
    exact hinv.pending_fits
  · rw [hrun, hmode]
    exact hinv.running_iff
  · rwa [hrun]

theorem machineInv_withAgenda (hinv : MachineInv s) (ms : List Move) : MachineInv { s with agenda := ms } :=
  machineInv_of_sequencer_eq hinv rfl hinv.tick_running hinv.errorFits

theorem machineInv_busRead (hinv : MachineInv s) (a : Offset) (n : Nat) : MachineInv (busRead a n s) := by
  refine machineInv_of_sequencer_eq hinv (sequencer_busRead a n s) ?_ (errorFits_busRead hinv.errorFits a n)
  obtain ⟨_, _, _, _, h⟩ := busRead_frame a n s
  rw [h]
  exact hinv.tick_running

theorem machineInv_pollRead (hinv : MachineInv s) (a : Offset) (mask w : Word) : MachineInv (pollRead a mask w s) := by
  obtain ⟨ms, h⟩ := pollRead_frame a mask w s
  rw [h]
  exact machineInv_withAgenda (machineInv_busRead hinv a 8) ms

theorem machineInv_busWrite (hinv : MachineInv s) (act : WriteAction) (a : Offset) (n : Nat) (v : Word) :
    MachineInv (busWrite act a n v s) := by
  refine machineInv_of_sequencer_eq hinv (sequencer_busWrite act a n v s) ?_ (errorFits_busWrite hinv.errorFits act a n v)
  cases act with
  | refuse c =>
    rw [busWrite, raiseErr_frame]
    exact hinv.tick_running
  | clear => exact hinv.tick_running
  | issue i => exact hinv.tick_running
  | store r =>
    obtain ⟨_, _, _, _, h⟩ := storeReg_frame r v s
    rw [busWrite, h]
    exact hinv.tick_running

theorem machineInv_bodyOf (hinv : MachineInv s) (i : Instr) : MachineInv (bodyOf i s) := by
  cases i <;> exact machineInv_of_sequencer_eq hinv rfl hinv.tick_running hinv.errorFits

theorem machineInv_computeBody (hinv : MachineInv s) : MachineInv (computeBody s) :=
  machineInv_of_sequencer_eq hinv rfl hinv.tick_running hinv.errorFits

/-! The transitions of the sequencer (R180, R185, R188). -/

theorem machineInv_accept (hinv : MachineInv s) (hs : s.seq = .idle) (i : Instr) : MachineInv (accept i s) := by
  obtain ⟨hmode, -⟩ := pendingFits_idle_iff.1 (hs ▸ hinv.pending_fits)
  have hrun : s.running = false := by simpa [hmode] using hinv.running_iff
  have htick : s.tickPending = false := by simpa [hrun] using hinv.tick_running
  refine ⟨?_, ?_, ?_, ?_, hinv.err_iff, hinv.multi_err⟩
  · cases i <;> simp [acceptedSeq]
  · cases i <;> simp [acceptedSeq, acceptedMode, pendingFits, hmode]
  · cases i <;> simp [acceptedMode, hmode, hrun]
  · simp [htick]

/-- A command completes only where MODE is ONCE: RUN does not (R185). -/
theorem machineInv_complete (hinv : MachineInv s) (hmode : s.mode = .once) : MachineInv (complete s) where
  busy_iff := by simp
  pending_fits := pendingFits_idle_iff.2 ⟨hmode, rfl⟩
  running_iff := hinv.running_iff
  tick_running := hinv.tick_running
  err_iff := hinv.err_iff
  multi_err := hinv.multi_err

/-- SEQ may go from one of the busy states to another that PENDING and MODE fit. -/
theorem machineInv_withSeq (hinv : MachineInv s) (hs : s.seq ≠ .idle) (hq : q ≠ .idle)
    (hfit : pendingFits q s.mode s.pending = true) : MachineInv { s with seq := q } where
  busy_iff := iff_of_true (hinv.busy_iff.2 hs) hq
  pending_fits := hfit
  running_iff := hinv.running_iff
  tick_running := hinv.tick_running
  err_iff := hinv.err_iff
  multi_err := hinv.multi_err

/-- A delivery goes on to the next of the acquisition and compute states, which PENDING and MODE fit as well; without one
nothing changes. -/
theorem machineInv_acquireGrid (hinv : MachineInv s) (hs : s.seq = .acqGrid) : MachineInv (acquireGrid s) := by
  have hnext : MachineInv { s with seq := .acqPv } := machineInv_withSeq hinv (by simp [hs]) nofun <|
    (pendingFits_acquiring_iff (by decide)).2 ((pendingFits_acquiring_iff (.inl hs)).1 hinv.pending_fits)
  unfold acquireGrid
  split
  · exact machineInv_of_sequencer_eq hnext rfl hinv.tick_running hinv.errorFits
  · exact hinv

theorem machineInv_acquirePv (hinv : MachineInv s) (hs : s.seq = .acqPv) : MachineInv (acquirePv s) := by
  have hnext : MachineInv { s with seq := .compute } := machineInv_withSeq hinv (by simp [hs]) nofun <|
    (pendingFits_acquiring_iff (by decide)).2 ((pendingFits_acquiring_iff (.inr (.inl hs))).1 hinv.pending_fits)
  unfold acquirePv
  split
  · exact machineInv_of_sequencer_eq hnext rfl hinv.tick_running hinv.errorFits
  · exact hinv

/-- MODE ONCE completes the command; with MODE LOOP the command is RUN, which fits WAIT_TICK. -/
theorem machineInv_endCompute (hinv : MachineInv s) (hs : s.seq = .compute) : MachineInv (endCompute s) := by
  cases hmode : s.mode with
  | once => exact endCompute_of_once hmode ▸ machineInv_complete hinv hmode
  | loop =>
    obtain ⟨hrun, -⟩ := pendingFits_loop_iff.1 (hmode ▸ hinv.pending_fits)
    exact endCompute_of_loop hmode ▸
      machineInv_withSeq hinv (by simp [hs]) nofun (pendingFits_waitTick_iff.2 ⟨hmode, hrun⟩)

theorem machineInv_leaveWaitTick (hinv : MachineInv s) (hs : s.seq = .waitTick) : MachineInv (leaveWaitTick s) := by
  have hnext : MachineInv { s with seq := .acqGrid } := machineInv_withSeq hinv (by simp [hs]) nofun <|
    (pendingFits_acquiring_iff (by decide)).2 (.inr (pendingFits_waitTick_iff.1 (hs ▸ hinv.pending_fits)))
  unfold leaveWaitTick
  split
  · exact machineInv_of_sequencer_eq hnext rfl nofun hinv.errorFits
  · exact hinv

theorem machineInv_exec (hinv : MachineInv s) (h : exec i s = .next t) : MachineInv t := by
  obtain ⟨hs, rfl⟩ | ⟨hs, -, -, rfl⟩ | ⟨hs, -, rfl⟩ | ⟨hs, -, rfl⟩ | ⟨hs, -, rfl⟩ | ⟨hs, -, rfl⟩ := exec_cases h
  · exact machineInv_accept hinv hs i
  · obtain ⟨hmode, -⟩ := pendingFits_exec_iff.1 (hs ▸ hinv.pending_fits)
    have hkeep : (bodyOf i s).mode = s.mode := by cases i <;> rfl
    exact machineInv_complete (machineInv_bodyOf hinv i) (hkeep.trans hmode)
  · exact machineInv_acquireGrid hinv hs
  · exact machineInv_acquirePv hinv hs
  · exact machineInv_endCompute (machineInv_computeBody hinv) hs
  · exact machineInv_leaveWaitTick hinv hs

/-! The environment's own moves: a tick and the reset. -/

theorem machineInv_takeTick (hinv : MachineInv s) : MachineInv (takeTick s) :=
  machineInv_of_sequencer_eq hinv rfl (fun h => (Bool.or_eq_true_iff.1 h).elim hinv.tick_running id) hinv.errorFits

theorem machineInv_resetMachine (s : State) : MachineInv (resetMachine s) := by
  constructor <;> simp [resetMachine, State.reset, pendingFits]

end

/-- Settles O1, by what the step does: the bus, the bodies, the sequencer's transitions, a tick and the reset each keep the invariant. -/
theorem stepKeepsInvariant : Obligations.StepKeepsInvariant := by
  intro s t hinv h
  have hpop : MachineInv s.pop := machineInv_withAgenda hinv s.agenda.tail
  rcases step_cases h with rfl | rfl | ⟨i, -, he | he⟩ | ⟨a, n, v, i, rest, -, -, he⟩ | ⟨a, n, v, rest, -, rfl, -⟩ |
    ⟨a, n, rest, -, rfl⟩ | ⟨a, m, w, rest, -, rfl⟩ | ⟨rest, -, rfl⟩ | ⟨rest, -, rfl⟩
  · exact hinv
  · exact hpop
  · exact machineInv_exec hinv he
  · exact machineInv_exec hpop he
  · exact machineInv_exec (machineInv_busWrite hpop (.issue i) a n v) he
  · exact machineInv_busWrite hpop _ a n v
  · exact machineInv_busRead hpop a n
  · exact machineInv_pollRead hpop a m w
  · exact machineInv_takeTick hpop
  · exact machineInv_resetMachine s.pop

/-! Nothing stops the machine (R204, R205, R207): where the invariant holds, R188 has a row for every transition that is asked for. -/

section
variable {s : State} {i : Instr} {m : Mode} {q : Seq}

theorem exists_exec_of_pending (hinv : MachineInv s) (hp : s.pending = some i) : ∃ t, exec i s = .next t := by
  have hfit := hp ▸ hinv.pending_fits
  have hacq (hq : s.seq = .acqGrid ∨ s.seq = .acqPv ∨ s.seq = .compute) : i = .cycle ∨ i = .run := by
    simpa using ((pendingFits_acquiring_iff hq).1 hfit).imp And.right And.right
  cases hs : s.seq with
  | idle => exact ⟨_, exec_idle i hs⟩
  | exec =>
    obtain ⟨-, j, hj, hc, hr⟩ := pendingFits_exec_iff.1 (hs ▸ hfit)
    obtain rfl := Option.some.inj hj
    exact ⟨_, exec_exec hs hc hr⟩
  | acqGrid => exact ⟨_, exec_acqGrid hs (hacq (.inl hs))⟩
  | acqPv => exact ⟨_, exec_acqPv hs (hacq (.inr (.inl hs)))⟩
  | compute => exact ⟨_, exec_compute hs (hacq (.inr (.inr hs)))⟩
  | waitTick =>
    obtain ⟨-, hi⟩ := pendingFits_waitTick_iff.1 (hs ▸ hfit)
    obtain rfl := Option.some.inj hi
    exact ⟨_, exec_waitTick hs⟩

theorem eq_idle_of_pendingFits_none (h : pendingFits q m none = true) : q = .idle := by
  cases q <;> cases m <;> simp [pendingFits] at h ⊢

theorem exists_runPending (hinv : MachineInv s) (hs : s.seq ≠ .idle) : ∃ t, runPending s = .next t := by
  cases hp : s.pending with
  | none => exact absurd (eq_idle_of_pendingFits_none (hp ▸ hinv.pending_fits)) hs
  | some i =>
    rw [runPending_of_pending hp]
    exact exists_exec_of_pending hinv hp

theorem exists_coreStep (hinv : MachineInv s) : ∃ t, coreStep s = .next t := by
  unfold coreStep
  split
  · next hen => exact exists_runPending hinv fun hs => by simp [coreEnabled, hs] at hen
  · exact ⟨s, rfl⟩

theorem seq_eq_idle_of_not_busy (hinv : MachineInv s) (hbusy : s.busy = false) : s.seq = .idle := by
  by_contra hne
  exact absurd (hinv.busy_iff.2 hne) (by simp [hbusy])

/-- An issued command is accepted: BUSY is 0, so SEQ is IDLE (R180, R203). -/
theorem exists_hostWrite (hinv : MachineInv s) (a : Offset) (n : Nat) (v : Word) : ∃ t, hostWrite a n v s = .next t := by
  unfold hostWrite
  split
  case h_1 i hact =>
    obtain ⟨-, -, hbusy, -⟩ := writeAction_issue hact
    have hidle : s.seq = .idle := seq_eq_idle_of_not_busy hinv hbusy
    exact ⟨_, exec_idle i hidle⟩
  all_goals exact ⟨_, rfl⟩

end

/-- Settles O3, by the move at the head of the agenda. -/
theorem stepNeverStops : Obligations.StepNeverStops := by
  intro s hinv
  have hpop : MachineInv s.pop := machineInv_withAgenda hinv s.agenda.tail
  unfold step
  split
  · exact exists_coreStep hinv
  · exact exists_coreStep hpop
  · exact ⟨_, rfl⟩
  · exact exists_hostWrite hpop _ _ _
  · exact ⟨_, rfl⟩
  · split
    · next hreq => exact exists_runPending hinv fun hs => by simp [State.gridReq, hs] at hreq
    · exact ⟨_, rfl⟩
  · split
    · next hreq => exact exists_runPending hinv fun hs => by simp [State.pvReq, hs] at hreq
    · exact ⟨_, rfl⟩
  · exact ⟨_, rfl⟩
  · exact ⟨_, rfl⟩

end Sys2Proof.Machine
end

section
/-! Reset (70_reset_and_hazards.md section 1): it leaves the reset state from any state, the reset state meets the invariant, and of what the
INIT commands write it holds what they leave from the reset configuration. -/

namespace Sys2Proof.Machine

/-- Settles O2: but for the history, which the invariant does not read, the reset state is what a reset leaves. -/
theorem invariantHoldsAtReset : Obligations.InvariantHoldsAtReset :=
  machineInv_of_sequencer_eq (machineInv_resetMachine State.reset) rfl nofun (machineInv_resetMachine State.reset).errorFits

/-- Settles O47: the step is the reset of the state with its move taken. -/
theorem resetFromAnyState : Obligations.ResetFromAnyState := by
  intro s rest ha
  simp only [step, ha, resetMachine, State.pop, List.tail_cons]

/-- Settles O49: the fields are those of the reset state, and in every state a request compares SEQ with its acquisition state. -/
theorem resetHiddenState : Obligations.ResetHiddenState := by
  refine ⟨rfl, rfl, rfl, rfl, rfl, rfl, rfl, rfl, rfl, rfl, rfl, rfl, rfl, fun s => ⟨?_, ?_, rfl, rfl, rfl, rfl⟩⟩
  · rw [State.gridReq, beq_iff_eq]
  · rw [State.pvReq, beq_iff_eq]

/-! The INIT commands from the reset configuration (R230). -/

/-- PLL_INIT and MPPT_INIT each latch their own bit of ACTIVE, so together they copy CTRL (R27). -/
theorem latchMpptAct_latchPllAct (ctrl active : BitVec 2) : latchMpptAct ctrl (latchPllAct ctrl active) = ctrl := by
  refine BitVec.eq_of_getLsbD_eq fun i hi => ?_
  obtain rfl | rfl : i = 0 ∨ i = 1 := by omega
  · rw [getLsbD_zero_latchMpptAct, getLsbD_zero_latchPllAct]
  · rw [getLsbD_one_latchMpptAct]

/-- The reset values of COEF_* are the formulas of R111 on the reset configuration, every operation rounded. -/
theorem sogiCoefs_reset : sogiCoefs State.reset.pllSnap = State.reset.coef := by decide +kernel

theorem coefNonfinite_reset : coefNonfinite State.reset.coef = false := by decide

/-- PLL_INIT with finite coefficients sets no flag (R110). -/
theorem stickyAfterPllInit_of_finite {c : CoefRegs} (hc : coefNonfinite c = false) (k : Sticky) : stickyAfterPllInit c k = k := by
  rw [stickyAfterPllInit_eq, hc]
  exact stickyOr_noSticky k

/-- Settles O50: the PLL's part turns on the coefficients of the reset configuration, which are finite; each other register is a latched
configuration register or a constant of the bodies. -/
theorem resetEqualsTheInits : Obligations.ResetEqualsTheInits := by
  intro s hs hctrl hcfg
  have hsnap : latchPllSnap s.cfg = State.reset.pllSnap := congrArg latchPllSnap hcfg
  have hcoef : sogiCoefs (latchPllSnap s.cfg) = State.reset.coef := by rw [hsnap, sogiCoefs_reset]
  have hsticky : stickyAfterPllInit (sogiCoefs (latchPllSnap s.cfg)) s.sticky = s.sticky := by
    rw [hcoef, stickyAfterPllInit_of_finite coefNonfinite_reset]
  refine ⟨_, _, _, exec_exec hs (by decide) (by decide), exec_exec rfl (by decide) (by decide), exec_exec rfl (by decide) (by decide),
    ?_, rfl, hcoef, rfl, rfl, hsnap, congrArg latchMpptSnap hcfg, congrArg latchMapSnap hcfg, hsticky⟩
  exact (latchMpptAct_latchPllAct s.ctrl s.active).trans hctrl

end Sys2Proof.Machine
end
